-- ==== Sys2Proof/Word.lean ====
section
/-! DEFINITION. The block's words: bytes, levels and state codes (00_scope.md R8, R10). -/

namespace Sys2Proof

/-- An unsigned 8-bit value, bit 0 the least significant (R10). -/
abbrev Byte := BitVec 8

/-- A symbol or level: one bit, `true` is 1 and `false` is 0 (R10). -/
abbrev Level := Bool

/-- The 4-bit code of the state register (R8, 10_state.md R21). -/
abbrev StateCode := BitVec 4

end Sys2Proof
end

