-- ==== Sys2Proof/Config.lean ====
section
/-! DEFINITION. Implementation parameters and constant tables (00_scope.md R7, 10_state.md R35), and the one free value.

A parameter that belongs to a channel (`CAP`, `timer_of`, `pins`) stands in the channel's own record in State, so that
every statement holds for every value the spec admits. -/

namespace Sys2Proof

/-- `CAP`: the capacity in bytes of each of a channel's two buffers, `3 <= CAP <= 256` (R7, D11). -/
structure Capacity where
  bytes : Nat
  atLeast : 3 ≤ bytes
  atMost : bytes ≤ 256
deriving DecidableEq, Repr

/-- `pins(ch)`: the four pin identities of a channel, fixed for its lifetime (R7, R36). -/
structure Pins where
  txOut : Nat
  rxIn : Nat
  txEnableOut : Nat
  rxEnableIn : Nat
deriving DecidableEq, Repr

/-- What a channel is constructed with (R233 step 1): its capacity, its tick source, its pins, and the channel its
wires lead to (R56). No step changes it. -/
structure ChanConfig where
  cap : Capacity
  timer : Nat
  pins : Pins
  peer : Nat
deriving DecidableEq, Repr

/-- `PRE[0..4]`: the preamble symbols (R7, R35, D5). -/
def Config.preamble : List Level := [true, false, true, false, true]

/-- `POST[0..3]`: the postamble symbols (R7, R35, D6). -/
def Config.postamble : List Level := [true, false, true, false]

/-- `LISTEN`: the symbol the receiver drives while it receives data (R7, D7). -/
def Config.listen : Level := true

/-- `IDLE`: the level of a de-asserted output (R7, D8). -/
def Config.idle : Level := false

/-- `TERM`: the terminator byte value (R7, D10). -/
def Config.term : Byte := 0x00#8

/-- The level of an undriven line at draw number `n` (R63: "a level the model chooses freely at each sample"). A FREE
VALUE: no body, nothing can be proved of it (log entry 5). -/
opaque Config.undrivenLevel : Nat → Level

/-- `T_TICK`: the tick period in microseconds, a parameter no rule uses (R7, R246). No body. -/
opaque Config.tickPeriod : Nat

end Sys2Proof
end

