-- ==== Sys2Proof/Syntax.lean ====
section
/-! DEFINITION. The instructions: one constructor per row of spec/opcode_table.json (30_encoding.md R74). -/

namespace Sys2Proof

/-- The five host commands (format `H`) and the fifteen tick operations (format `T`) of R70 and R74. A tick operation
has no operand: it reads the state register, `tis` and the sampled lines. -/
inductive Instr where
  /-- `BEGIN` (R181). -/
  | hostBegin
  /-- `PUT` with payload `d` (R182, R72). -/
  | hostPut (d : List Byte)
  /-- `RDY` (R184). -/
  | hostRdy
  /-- `GET` (R185). -/
  | hostGet
  /-- `STATUS` (R186). -/
  | hostStatus
  /-- `TICK.NOTINIT` (R107). -/
  | tickNotinit
  /-- `TICK.READY` (R108). -/
  | tickReady
  /-- `TICK.RX_START` (R120). -/
  | tickRxStart
  /-- `TICK.RX_CHAR` (R121). -/
  | tickRxChar
  /-- `TICK.RX_ACK` (R122). -/
  | tickRxAck
  /-- `TICK.RX_CHECKSUM` (R123). -/
  | tickRxChecksum
  /-- `TICK.RX_ABORT` (R124). -/
  | tickRxAbort
  /-- `TICK.RX_ERR` (R125). -/
  | tickRxErr
  /-- `TICK.RX_DONE` (R126). -/
  | tickRxDone
  /-- `TICK.TX_START` (R140). -/
  | tickTxStart
  /-- `TICK.TX_CHAR` (R141). -/
  | tickTxChar
  /-- `TICK.TX_END` (R142). -/
  | tickTxEnd
  /-- `TICK.TX_ACK` (R143). -/
  | tickTxAck
  /-- `TICK.TX_ERR` (R144). -/
  | tickTxErr
  /-- `TICK.TX_DONE` (R145). -/
  | tickTxDone
deriving DecidableEq, Repr

end Sys2Proof
end

