-- ==== Sys2Proof/WellFormed.lean ====
section
/-! DEFINITION. Which instruction terms the encodings admit (30_encoding.md R72). -/

namespace Sys2Proof

/-- `PUT`'s length byte is an unsigned 8-bit value, so its payload has at most 255 bytes (R71, R72); no other
instruction has an operand to check. -/
def Instr.wellFormed : Instr → Bool
  | .hostPut d => decide (d.length ≤ 255)
  | .hostBegin => true
  | .hostRdy => true
  | .hostGet => true
  | .hostStatus => true
  | .tickNotinit => true
  | .tickReady => true
  | .tickRxStart => true
  | .tickRxChar => true
  | .tickRxAck => true
  | .tickRxChecksum => true
  | .tickRxAbort => true
  | .tickRxErr => true
  | .tickRxDone => true
  | .tickTxStart => true
  | .tickTxChar => true
  | .tickTxEnd => true
  | .tickTxAck => true
  | .tickTxErr => true
  | .tickTxDone => true

end Sys2Proof
end

