-- ==== Sys2Proof/Decode.lean ====
section
/-! DEFINITION. Decoding and encoding of both formats (30_encoding.md R70 to R78) and the host's view of a table word.

The decoder refuses by answering `none`: a reserved or malformed host command (R75), or state code 15 (R77). What the
machine does then is said where the step is (Machine/Delivery.lean). -/

namespace Sys2Proof

/-! ### State codes (10_state.md R21) -/

abbrev Code.notinit : StateCode := 0#4
abbrev Code.ready : StateCode := 1#4
abbrev Code.rxStart : StateCode := 2#4
abbrev Code.rxChar : StateCode := 3#4
abbrev Code.rxAck : StateCode := 4#4
abbrev Code.rxChecksum : StateCode := 5#4
abbrev Code.rxAbort : StateCode := 6#4
abbrev Code.rxErr : StateCode := 7#4
abbrev Code.rxDone : StateCode := 8#4
abbrev Code.txStart : StateCode := 9#4
abbrev Code.txChar : StateCode := 10#4
abbrev Code.txEnd : StateCode := 11#4
abbrev Code.txAck : StateCode := 12#4
abbrev Code.txErr : StateCode := 13#4
abbrev Code.txDone : StateCode := 14#4
/-- Code 15: unused, never written by any rule (R77). -/
abbrev Code.unused : StateCode := 15#4

/-! ### Command codes (R71, R74) -/

abbrev Command.begin_ : Byte := 0x01#8
abbrev Command.put : Byte := 0x02#8
abbrev Command.rdy : Byte := 0x03#8
abbrev Command.get : Byte := 0x04#8
abbrev Command.status : Byte := 0x05#8

/-! ### Format H -/

/-- The length of a format `H` string, found from its first bytes (R78): `2 + byte1` for `PUT`, 1 for every other code.
A `PUT` string without its length byte is shorter than this. -/
def commandLength : List Byte → Nat
  | [] => 1
  | c :: rest => if c = Command.put then 2 + (rest.headD 0#8).toNat else 1

/-- Decode one complete host command string (R71, R72, R74). `none` is a reserved code or a malformed string (R75). -/
def decodeHost (bytes : List Byte) : Option Instr :=
  if bytes.length = commandLength bytes then
    match bytes with
    | [] => none
    | c :: rest =>
      if c = Command.begin_ then some .hostBegin
      else if c = Command.put then some (.hostPut (rest.drop 1))
      else if c = Command.rdy then some .hostRdy
      else if c = Command.get then some .hostGet
      else if c = Command.status then some .hostStatus
      else none
  else none

/-! ### Format T -/

/-- The tick operation a state code selects (R74, R76, R104). `none` is code 15 (R77). -/
def decodeTick (code : StateCode) : Option Instr :=
  if code = Code.notinit then some .tickNotinit
  else if code = Code.ready then some .tickReady
  else if code = Code.rxStart then some .tickRxStart
  else if code = Code.rxChar then some .tickRxChar
  else if code = Code.rxAck then some .tickRxAck
  else if code = Code.rxChecksum then some .tickRxChecksum
  else if code = Code.rxAbort then some .tickRxAbort
  else if code = Code.rxErr then some .tickRxErr
  else if code = Code.rxDone then some .tickRxDone
  else if code = Code.txStart then some .tickTxStart
  else if code = Code.txChar then some .tickTxChar
  else if code = Code.txEnd then some .tickTxEnd
  else if code = Code.txAck then some .tickTxAck
  else if code = Code.txErr then some .tickTxErr
  else if code = Code.txDone then some .tickTxDone
  else none

/-! ### Both formats (R70: "Every instruction is either a complete `H` string or one tick event") -/

/-- What selects an instruction: a command string, or the state code at a tick event. -/
inductive Encoded where
  | host (bytes : List Byte)
  | tick (code : StateCode)
deriving DecidableEq, Repr

/-- The decoder, total on both formats. -/
def decode : Encoded → Option Instr
  | .host bytes => decodeHost bytes
  | .tick code => decodeTick code

/-- The encoder, from the same tables (R71, R74). -/
def encode : Instr → Encoded
  | .hostBegin => .host [Command.begin_]
  | .hostPut d => .host (Command.put :: BitVec.ofNat 8 d.length :: d)
  | .hostRdy => .host [Command.rdy]
  | .hostGet => .host [Command.get]
  | .hostStatus => .host [Command.status]
  | .tickNotinit => .tick Code.notinit
  | .tickReady => .tick Code.ready
  | .tickRxStart => .tick Code.rxStart
  | .tickRxChar => .tick Code.rxChar
  | .tickRxAck => .tick Code.rxAck
  | .tickRxChecksum => .tick Code.rxChecksum
  | .tickRxAbort => .tick Code.rxAbort
  | .tickRxErr => .tick Code.rxErr
  | .tickRxDone => .tick Code.rxDone
  | .tickTxStart => .tick Code.txStart
  | .tickTxChar => .tick Code.txChar
  | .tickTxEnd => .tick Code.txEnd
  | .tickTxAck => .tick Code.txAck
  | .tickTxErr => .tick Code.txErr
  | .tickTxDone => .tick Code.txDone

/-! ### Table words

spec/opcode_table.json numbers the bits of both formats from 0, although format `T` fetches no bits (R70) and its match
values 0 to 14 name state codes, not bytes. A table word therefore does not say which format it is of: the bytes 0x01 to
0x05 match a row of each. Log entry 11 says how the model reads it. -/

/-- Byte `k` of a number whose bits above `nbits` are 0, bit 0 the least significant bit of byte 0. -/
def tableByte (nbits w k : Nat) : Byte := BitVec.ofNat 8 ((w % 2 ^ nbits) >>> (8 * k))

/-- The command string a table word stands for: as many bytes as its first bytes ask for (R78), the bits above `nbits`
being 0. -/
def tableBytes (nbits w : Nat) : List Byte :=
  let len := commandLength [tableByte nbits w 0, tableByte nbits w 1]
  (List.range len).map (tableByte nbits w)

/-- The reading of a table word (log entry 11): a word narrower than a byte is a state code; another word is a host
command where its bytes decode as one, and otherwise the state code in its low 4 bits. -/
def tableEncoded (nbits w : Nat) : Encoded :=
  if nbits < 8 then .tick (BitVec.ofNat 4 (w % 2 ^ nbits))
  else match decodeHost (tableBytes nbits w) with
    | some _ => .host (tableBytes nbits w)
    | none => .tick (BitVec.ofNat 4 (w % 2 ^ nbits))

/-- The instruction the decoder reads from an instruction whose bits are `w`, numbered as the opcode table numbers them. -/
def decodeTableWord (nbits w : Nat) : Option Instr := decode (tableEncoded nbits w)

end Sys2Proof
end

