-- ==== Sys2Proof/Machine/State.lean ====
section
/-! DEFINITION. The state of a system of channels (10_state.md R20 to R37, 70_reset_and_hazards.md R230), the events the
outside world presents to it, and the reasons a step can stop. -/

namespace Sys2Proof.Machine

/-! ### Outputs of a step -/

/-- The kind of a receive synchronization error (60_exceptions.md R200): activity line wrong, symbol wrong, or postamble
start wrong or misaligned. -/
inductive RxKind where
  | en
  | sym
  | post
deriving DecidableEq, Repr

/-- The kind of a transmit synchronization error (R200): wrong echo, or listening echo lost. -/
inductive TxKind where
  | sym
  | listen
deriving DecidableEq, Repr

/-- Why a `PUT` is invalid (R200): payload too long, or `TERM` in the payload. -/
inductive PutKind where
  | len
  | term
deriving DecidableEq, Repr

/-- The command an `E_MISUSE` names (R200). -/
inductive MisuseCommand where
  | put
  | get
deriving DecidableEq, Repr

/-- The error events with the information their labels carry (R200). A label is attached to the step that detects the
error and is stored nowhere in a channel (R201). -/
inductive Label where
  /-- `E_SYNC_RX`: the state, `tis` and the kind. -/
  | syncRx (state : StateCode) (tis : Nat) (kind : RxKind)
  /-- `E_SYNC_TX`: the state, `tis` or `tx_cursor`, and the kind. -/
  | syncTx (state : StateCode) (pos : Nat) (kind : TxKind)
  /-- `E_CHECKSUM`: the computed and the received checksum. -/
  | checksum (computed received : Byte)
  /-- `E_SHORT`: `rx_len`, 0 or 1. -/
  | short (len : Byte)
  /-- `E_OVERFLOW`: `rx_len = CAP - 1`. -/
  | overflow (len : Byte)
  /-- `E_COLLISION`: the state, and `tis` or `tx_cursor`. -/
  | collision (state : StateCode) (pos : Nat)
  /-- `E_MISUSE`: the command. -/
  | misuse (command : MisuseCommand)
  /-- `E_REINIT`. -/
  | reinit
  /-- `E_PUT_INVALID`: `LEN` or `TERM`. -/
  | putInvalid (kind : PutKind)
deriving DecidableEq, Repr

/-- The response of a host command (30_encoding.md R73). Its bytes are `Response.bytes` (Operands.lean). -/
inductive Response where
  | ok
  | already
  | putTrue
  | rejUninit
  | rejLen
  | rejTerm
  | readyIs (b : Bool)
  | message (payload : List Byte)
  | statusIs (word : BitVec 16)
  | refusedCode
deriving DecidableEq, Repr

/-- The observable outcome of the latest step: the channel it ran on, its host response if it ended one (R73), and its
error event if it raised one (R204: at most one). The model's own output (log entry 6): no step reads it. -/
structure StepOut where
  chan : Nat
  resp : Option Response
  label : Option Label
deriving DecidableEq, Repr

/-! ### A channel -/

/-- The bytes of one buffer, in canonical form: addresses strictly rising, and no entry equal to what an unlisted
address reads as (`Memory.wf`). -/
abbrev Memory := List Host.Cell

/-- What a byte that nothing has written reads as. DESIGN CHOICE, unsafe (log entry 2): R230 leaves the power-on bytes
unspecified and lets a model pick any value; no rule reads one before writing it. -/
def Memory.unlisted : Byte := 0x00#8

/-- The levels of the two input lines of a channel at a sample: `rx` of `rx_in`, `en` of `rx_enable_in` (R12, R101). -/
structure Lines where
  rx : Level
  en : Level
deriving DecidableEq, Repr

/-- The faults a test harness has injected into a channel's next tick step (20_memory.md R64, 30_encoding.md R79): a flip
of either input, and input levels sampled ahead of the step (the simultaneous sampling of R57; log entry 13). -/
structure Injection where
  flipRx : Bool
  flipEn : Bool
  latched : Option Lines
deriving DecidableEq, Repr

/-- No fault injected. -/
def Injection.none : Injection := { flipRx := false, flipEn := false, latched := Option.none }

/-- The state of one channel: the fields of R20, the pin configuration of R32 and R181, and, for the agents around it,
the callers whose `PUT` issue phase is held (R13, R188) and the harness's injections. -/
structure Channel where
  cfg : ChanConfig
  state : StateCode
  tis : Nat
  initialized : Bool
  txReady : Bool
  txInProgress : Bool
  rxBuf : Memory
  rxLen : BitVec 8
  rxShift : BitVec 8
  txBuf : Memory
  txLen : BitVec 8
  txCursor : Nat
  txOut : Level
  txEn : Level
  driven : Bool
  putPending : Option (List Byte)
  waiters : List (List Byte)
  inject : Injection
deriving DecidableEq, Repr

/-- The power-on state of a channel constructed with `cfg` (R230). -/
def Channel.powerOn (cfg : ChanConfig) : Channel :=
  { cfg := cfg, state := Code.notinit, tis := 0, initialized := false, txReady := false, txInProgress := false,
    rxBuf := [], rxLen := 0#8, rxShift := 0#8, txBuf := [], txLen := 0#8, txCursor := 0,
    txOut := false, txEn := false, driven := false, putPending := none, waiters := [], inject := Injection.none }

/-! ### The system -/

/-- An entry of the channel registry: the tick source and the channel registered with it (R215). -/
structure Registration where
  timer : Nat
  chan : Nat
deriving DecidableEq, Repr

/-- An input line of a channel, as `FLIP` names it (R79). -/
inductive InputLine where
  | rx
  | en
deriving DecidableEq, Repr

/-- One entry of the interleaving (R58): what the outside world presents to the system next. -/
inductive Event where
  /-- A complete command string arrives at a channel's host port (R71, R79). -/
  | host (chan : Nat) (bytes : List Byte)
  /-- Waiting caller `caller` of a channel tries its held `PUT` issue phase again (R182, R188). -/
  | issue (chan caller : Nat)
  /-- The caller that holds a channel's producer lock tries its `PUT` commit phase (R183). -/
  | commit (chan : Nat)
  /-- One tick event reaches a channel (R100, R213). -/
  | tick (chan : Nat)
  /-- A period of a tick source begins: one tick event becomes due for every channel registered with it (R214). -/
  | strobe (timer : Nat)
  /-- A tick source delivers its next due tick event (R216). -/
  | deliver (timer : Nat)
  /-- The harness inverts an input at the channel's next tick step (R64, R79). -/
  | flip (chan : Nat) (line : InputLine)
  /-- The harness has a channel sample its inputs now for its next tick step: with another channel's step in between,
  both sample at once (R57, R64, R235). -/
  | latch (chan : Nat)
deriving DecidableEq, Repr

/-- The system: its channels, tick sources and registry; the channel that the running step acts on; the interleaving
still to come; the number of undriven levels drawn; and the outcome of the latest step. -/
structure State where
  chans : List Channel
  nTimers : Nat
  registry : List Registration
  due : List Registration
  active : Nat
  queue : List Event
  draws : Nat
  out : StepOut
deriving DecidableEq, Repr

/-- Why the machine stops with a fault. Each is unreachable from reset (R43, R52, R77) and safe: the model stops where it
would have left the rules of the spec. -/
inductive Fault where
  /-- A tick event finds state code 15 (R77, R109: "It must stop with a fault"). Raised by tick delivery. -/
  | unusedStateCode
  /-- A rule accesses a buffer at an index at or above `CAP` (R11, R52). Raised by the buffer-accessing meanings. -/
  | bufferIndex
  /-- A rule reads a handshake table past its end, `tis` being above the values the rule gives it (R120, R122, R140,
  R143). Raised by `TICK.RX_START`, `TICK.RX_ACK`, `TICK.TX_START` and `TICK.TX_ACK` (log entry 7). -/
  | tableIndex
deriving DecidableEq, Repr

/-- Why the machine refuses. -/
inductive Refusal where
  /-- No meaning for the instruction yet; raised by `exec`'s arms only. Safe. -/
  | notModelled (mnemonic : String)
  /-- An event names a channel the system does not have. Raised by every step on a channel. Safe. -/
  | noSuchChannel
  /-- An event names a tick source the system does not have. Raised by period start and delivery. Safe. -/
  | noSuchTimer
deriving DecidableEq, Repr

/-- No outcome to show. -/
def StepOut.none : StepOut := { chan := 0, resp := Option.none, label := Option.none }

/-- The configuration of channel A of the reset system (log entry 1). -/
def resetConfigA : ChanConfig :=
  { cap := { bytes := 8, atLeast := by decide, atMost := by decide }, timer := 0,
    pins := { txOut := 0, rxIn := 1, txEnableOut := 2, rxEnableIn := 3 }, peer := 1 }

/-- The configuration of channel B of the reset system (log entry 1). -/
def resetConfigB : ChanConfig :=
  { cap := { bytes := 8, atLeast := by decide, atMost := by decide }, timer := 1,
    pins := { txOut := 4, rxIn := 5, txEnableOut := 6, rxEnableIn := 7 }, peer := 0 }

/-- Power-on (R230): one link of two channels, cross-wired (R56), neither begun nor registered, and no event presented
yet (log entries 1 and 3). -/
def State.reset : State :=
  { chans := [Channel.powerOn resetConfigA, Channel.powerOn resetConfigB], nTimers := 2, registry := [], due := [],
    active := 0, queue := [], draws := 0, out := StepOut.none }

end Sys2Proof.Machine
end

