-- ==== Sys2Proof/Machine/Operands.lean ====
section
/-! DEFINITION. Operand forms: buffer bytes, table symbols, the sampled lines, bit positions, the framing arithmetic
(43_framing.md), and the byte form of responses and labels. -/

namespace Sys2Proof.Machine

/-! ### Buffer bytes -/

/-- `MemRead(buf, i, 1)` (R11): the byte listed at `i`, or what an unlisted byte reads as. -/
def Memory.read : Memory → Nat → Byte
  | [], _ => Memory.unlisted
  | (a, v) :: m, i => if a = i then v else Memory.read m i

/-- `[buf[0], ..., buf[n-1]]`. -/
def Memory.readRange (m : Memory) (n : Nat) : List Byte := (List.range n).map m.read

/-! ### Table symbols (R7, R35) -/

/-- `PRE[k]`, for `k <= 4`. -/
def preambleSymbol (k : Nat) : Level := Config.preamble.getD k Config.idle

/-- `POST[k]`, for `k <= 3`. -/
def postambleSymbol (k : Nat) : Level := Config.postamble.getD k Config.idle

/-! ### Checksum and frame (R10, R160 to R163) -/

/-- `XOR_fold` (R10). -/
def xorFold : List Byte → Byte
  | [] => 0x00#8
  | b :: bs => b ^^^ xorFold bs

/-- `chk(D)`: the checksum of a payload (R160). -/
def checksum (d : List Byte) : Byte := xorFold d

/-- The frame of a payload: the payload followed by its checksum (R161). -/
def frame (d : List Byte) : List Byte := d ++ [checksum d]

/-- `TxBit(c)`: bit `c mod 8` of `tx_buf[c div 8]` (R163). -/
def Channel.txBit (ch : Channel) (c : Nat) : Level := (ch.txBuf.read (c / 8)).getLsbD (c % 8)

/-- `rx_shift OR zext_8(rx << p)` (R121). -/
def shiftIn (shift : Byte) (rx : Level) (p : Nat) : Byte := shift ||| (if rx then 1#8 <<< p else 0#8)

/-! ### Inputs (R56, R63, R64, R101) -/

/-- The levels a channel's two wires carry: the output registers of the channel they lead to (R56), or `none` while that
channel does not drive them (R63). -/
def State.wire (s : State) (ch : Channel) : Option Lines :=
  match s.chans[ch.cfg.peer]? with
  | some p => if p.driven then some { rx := p.txOut, en := p.txEn } else none
  | none => none

/-- The levels a channel reads from its wires now: an undriven line gives a free draw (R63). -/
def State.wireLevels (s : State) (ch : Channel) : Lines :=
  match s.wire ch with
  | some l => l
  | none => { rx := Config.undrivenLevel s.draws, en := Config.undrivenLevel (s.draws + 1) }

/-- The draws used after a channel has read its wires: two more where they are undriven. -/
def State.drawsAfterRead (s : State) (ch : Channel) : Nat :=
  match s.wire ch with
  | some _ => s.draws
  | none => s.draws + 2

/-- The levels a channel samples at its tick step (R101): those of its wires, or those the harness had it sample ahead,
each inverted where a flip is armed (R64). -/
def State.sampled (s : State) (ch : Channel) : Lines :=
  let l := ch.inject.latched.getD (s.wireLevels ch)
  { rx := l.rx ^^ ch.inject.flipRx, en := l.en ^^ ch.inject.flipEn }

/-- The draws used after a channel's tick step. -/
def State.drawsAfterSample (s : State) (ch : Channel) : Nat :=
  match ch.inject.latched with
  | some _ => s.draws
  | none => s.drawsAfterRead ch

/-! ### Bytes of responses and labels -/

/-- The response bytes (R73). -/
def Response.bytes : Response → List Byte
  | .ok => [0x00#8]
  | .already => [0x01#8]
  | .putTrue => [0x00#8]
  | .rejUninit => [0x02#8]
  | .rejLen => [0x03#8]
  | .rejTerm => [0x04#8]
  | .readyIs b => [if b then 0x01#8 else 0x00#8]
  | .message d => BitVec.ofNat 8 d.length :: d
  | .statusIs w => [w.extractLsb' 0 8, w.extractLsb' 8 8]
  | .refusedCode => [0xFF#8]

/-- The event codes of R200. -/
def Label.code : Label → Byte
  | .syncRx _ _ _ => 0x01#8
  | .syncTx _ _ _ => 0x02#8
  | .checksum _ _ => 0x03#8
  | .short _ => 0x04#8
  | .overflow _ => 0x05#8
  | .collision _ _ => 0x06#8
  | .misuse _ => 0x07#8
  | .reinit => 0x08#8
  | .putInvalid _ => 0x09#8

end Sys2Proof.Machine
end

