-- ==== Sys2Proof/Machine/Flags.lean ====
section
/-! DEFINITION. The flag views: the `STATUS` word (10_state.md R37) and the `RDY` condition (44_host_ops.md R184). -/

namespace Sys2Proof.Machine

/-- `PUTWAIT`: 1 if `put_pending` is not none (R37). -/
def Channel.putWait (ch : Channel) : Bool := ch.putPending.isSome

/-- The 16-bit status word (R37, R186): `RXLEN` in bits 15 to 8, `PUTWAIT` 7, `TXBUSY` 6, `TXRDY` 5, `INIT` 4, `STATE` in
bits 3 to 0. -/
def Channel.statusWord (ch : Channel) : BitVec 16 :=
  ch.rxLen ++ (BitVec.ofBool ch.putWait ++ (BitVec.ofBool ch.txInProgress ++
    (BitVec.ofBool ch.txReady ++ (BitVec.ofBool ch.initialized ++ ch.state))))

/-- A fully verified message is waiting (R184). -/
def Channel.messageReady (ch : Channel) : Bool := decide (ch.state = Code.rxDone ∧ 0 < ch.rxLen.toNat)

end Sys2Proof.Machine
end

