-- ==== Sys2Proof/Machine/Ops.lean ====
section
/-! DEFINITION. The named operations over buffers, channel fields and the system that the meanings share: the primitives
of 00_scope.md R11 to R13, RxClear and TxAbort (40_tick_common.md R105, R106), error entry and clean-up (60_exceptions.md
R207, R208), and the two shapes of a step, tick and host. -/

namespace Sys2Proof.Machine

/-! ### Buffer writes -/

/-- The canonical form of a buffer: addresses strictly rising, no entry equal to what an unlisted address reads as. -/
abbrev Memory.wf (m : Memory) : Prop :=
  m.Pairwise (fun x y => x.1 < y.1) ∧ ∀ x ∈ m, x.2 ≠ Memory.unlisted

/-- `MemWrite(buf, i, 1, v)` (R11), keeping the canonical form. -/
def Memory.write : Memory → Nat → Byte → Memory
  | [], i, v => if v = Memory.unlisted then [] else [(i, v)]
  | (a, w) :: m, i, v =>
    if i < a then (if v = Memory.unlisted then (a, w) :: m else (i, v) :: (a, w) :: m)
    else if i = a then (if v = Memory.unlisted then m else (i, v) :: m)
    else (a, w) :: Memory.write m i v

/-- `buf[i] <- bs[0]; buf[i+1] <- bs[1]; ...`. -/
def Memory.writeList : Memory → Nat → List Byte → Memory
  | m, _, [] => m
  | m, i, b :: bs => Memory.writeList (m.write i b) (i + 1) bs

/-! ### Tick-rule primitives (R12, R102, R103) -/

/-- `drive(d, e)`. -/
def Channel.drive (ch : Channel) (d e : Level) : Channel := { ch with txOut := d, txEn := e }

/-- `goto S`. -/
def Channel.goto (ch : Channel) (target : StateCode) : Channel := { ch with state := target, tis := 0 }

/-- `stay`. -/
def Channel.stay (ch : Channel) : Channel := { ch with tis := ch.tis + 1 }

/-- `RxClear` (R105). -/
def Channel.rxClear (ch : Channel) : Channel :=
  { ch with rxLen := 0#8, rxBuf := ch.rxBuf.write 0 Config.term, rxShift := 0#8 }

/-- `TxAbort` (R106). -/
def Channel.txAbort (ch : Channel) : Channel := { ch with txCursor := 0, txInProgress := false }

/-! ### Errors: entry and return (R207, R208)

The block takes no trap (R202). Detecting an error drives `(0, 0)` and moves to `target`, `RX_ABORT`, `RX_ERR`, `TX_ERR`
or, for a direct transmit abort, `READY`; nothing is saved. The clean-up step returns to `READY`. -/

/-- Entering an error: `drive(0, 0); goto target` with the event of the step (R201, R207). -/
def Channel.enterError (ch : Channel) (target : StateCode) (e : Label) : Channel × Option Label :=
  ((ch.drive Config.idle Config.idle).goto target, some e)

/-- Abandoning a transmission straight to `READY`: TxAbort, then error entry (R106, R207). -/
def Channel.abandonTx (ch : Channel) (e : Label) : Channel × Option Label :=
  ch.txAbort.enterError Code.ready e

/-- The receive clean-up that returns to `READY` (R124, R208). -/
def Channel.rxCleanUp (ch : Channel) : Channel :=
  (({ ch.rxClear with txInProgress := false }).drive Config.idle Config.idle).goto Code.ready

/-- The transmit clean-up that returns to `READY` (R144, R208). -/
def Channel.txCleanUp (ch : Channel) : Channel :=
  (ch.txAbort.drive Config.idle Config.idle).goto Code.ready

/-! ### The channel a step runs on -/

/-- The channel that the running step acts on. -/
def State.self (s : State) : Option Channel := s.chans[s.active]?

/-- Select the channel the next step acts on. -/
def State.select (s : State) (c : Nat) : State := { s with active := c }

/-- A step's result on its own channel: the channel's new state, the response and the event (R12, R13). -/
def State.finish (s : State) (ch : Channel) (resp : Option Response) (label : Option Label) : State :=
  { s with chans := s.chans.set s.active ch, out := { chan := s.active, resp := resp, label := label } }

/-- A step in which nothing happens: a held host step that is not enabled (R13: "The calling agent waits and no state
changes"). -/
def State.idle (s : State) : State := { s with out := { chan := s.active, resp := none, label := none } }

/-- A tick step's result: the rule's new channel and event. The step has consumed the harness's injections (R64, R79) and
the draws of its samples (R63). -/
def State.afterTick (s : State) (ch : Channel) (r : Channel × Option Label) : State :=
  { s.finish { r.1 with inject := Injection.none } none r.2 with draws := s.drawsAfterSample ch }

/-- The shape of every tick step (R100, R101): sample both lines, stop if the rule would access a table or a buffer out
of range (`guard`), otherwise run the rule, which always completes. -/
def onTick (s : State) (guard : Lines → Channel → Option Fault) (rule : Lines → Channel → Channel × Option Label) :
    Host.Outcome State Fault Refusal :=
  match s.self with
  | none => .refused .noSuchChannel
  | some ch =>
    match guard (s.sampled ch) ch with
    | some f => .fault f
    | none => .next (s.afterTick ch (rule (s.sampled ch) ch))

/-- The guard of a rule that accesses no table and no buffer out of range. -/
def inRange (_ : Lines) (_ : Channel) : Option Fault := none

/-- Stop with `f` unless `ok`. -/
def faultUnless (ok : Bool) (f : Fault) : Option Fault := if ok then none else some f

/-- The shape of a host step on its channel (R13, R54). -/
def onHost (s : State) (body : Channel → Host.Outcome State Fault Refusal) : Host.Outcome State Fault Refusal :=
  match s.self with
  | none => .refused .noSuchChannel
  | some ch => body ch

/-! ### `PUT`'s phases (R182, R183, R188) -/

/-- The effect of an issue phase that takes the producer lock (R182). -/
def Channel.takeLock (ch : Channel) (d : List Byte) : Channel := { ch with putPending := some d, txReady := false }

/-- The effect of the commit phase (R183, R162): the frame encoder. -/
def Channel.stage (ch : Channel) (d : List Byte) : Channel :=
  { ch with txBuf := ch.txBuf.writeList 0 (frame d), txLen := BitVec.ofNat 8 (d.length + 1), txCursor := 0,
            txReady := true, putPending := none }

/-- Whether the commit phase is enabled, and for which payload (R183: `hold until tx_in_progress = 0`). -/
def Channel.commitEnabled (ch : Channel) : Option (List Byte) :=
  if ch.txInProgress then none else ch.putPending

/-- The commit phase of `PUT` (R183). Not enabled, it changes nothing. -/
def commitPut (s : State) : Host.Outcome State Fault Refusal :=
  onHost s fun ch =>
    match ch.commitEnabled with
    | none => .next s.idle
    | some d =>
      if d.length < ch.cfg.cap.bytes then .next (s.finish (ch.stage d) (some .putTrue) none)
      else .fault .bufferIndex

/-- The held issue phase of waiting caller `k` (R182, R188). Not enabled, it changes nothing. -/
def retryIssue (s : State) (k : Nat) : Host.Outcome State Fault Refusal :=
  onHost s fun ch =>
    match ch.putPending, ch.waiters[k]? with
    | none, some d => .next (s.finish { ch.takeLock d with waiters := ch.waiters.eraseIdx k } none none)
    | _, _ => .next s.idle

/-! ### Refused commands (R75, R187) -/

/-- A reserved code or malformed string: no state change, response `0xFF`. -/
def refuseCommand (s : State) : Host.Outcome State Fault Refusal :=
  onHost s fun ch => .next (s.finish ch (some .refusedCode) none)

/-! ### Tick sources (R214 to R216) -/

/-- A period of tick source `t` begins: a tick event is due for each channel registered with it, in registration order. -/
def startPeriod (s : State) (t : Nat) : Host.Outcome State Fault Refusal :=
  if t < s.nTimers then
    .next { s with due := s.due ++ s.registry.filter (fun r => r.timer == t), out := StepOut.none }
  else .refused .noSuchTimer

/-- The channel whose tick event tick source `t` delivers next. -/
def State.nextDue (s : State) (t : Nat) : Option Nat := (s.due.find? (fun r => r.timer == t)).map (·.chan)

/-- The system once tick source `t` has delivered its next due tick event. -/
def State.popDue (s : State) (t : Nat) : State := { s with due := s.due.eraseP (fun r => r.timer == t) }

/-- Registration of the running step's channel with its tick source (R181, R215). -/
def State.register (s : State) (timer : Nat) : State :=
  { s with registry := s.registry ++ [{ timer := timer, chan := s.active }] }

/-! ### Harness (R64, R79) -/

/-- Arm a flip of one input for the channel's next tick step. -/
def Channel.armFlip (ch : Channel) : InputLine → Channel
  | .rx => { ch with inject := { ch.inject with flipRx := true } }
  | .en => { ch with inject := { ch.inject with flipEn := true } }

/-- `FLIP <ch>.rx`, `FLIP <ch>.en`. -/
def flipLine (s : State) (line : InputLine) : Host.Outcome State Fault Refusal :=
  onHost s fun ch => .next (s.finish (ch.armFlip line) none none)

/-- The channel samples its inputs now; its next tick step uses these levels. A second latch before that step samples
again. -/
def latchLines (s : State) : Host.Outcome State Fault Refusal :=
  onHost s fun ch =>
    .next { s.finish { ch with inject := { ch.inject with latched := some (s.wireLevels ch) } } none none with
            draws := s.drawsAfterRead ch }

end Sys2Proof.Machine
end

