-- ==== Sys2Proof/Machine/HostCommands.lean ====
section
/-! DEFINITION. The host commands (44_host_ops.md): `BEGIN`, `PUT` (issue phase; the commit phase is `commitPut` of
Ops.lean), `RDY`, `GET`, `STATUS`. -/

namespace Sys2Proof.Machine

/-- The channel after its first `BEGIN` (R181, R230): registration aside, every field at its "after first `BEGIN`" value. -/
def Channel.begun (ch : Channel) : Channel :=
  { ch with
      initialized := true, state := Code.ready, tis := 0,
      rxLen := 0#8, rxBuf := ch.rxBuf.write 0 Config.term, rxShift := 0#8,
      txLen := 0#8, txCursor := 0, txReady := false, txInProgress := false,
      driven := true, txOut := Config.idle, txEn := Config.idle }

/-- `BEGIN` (R181). -/
def execBegin (s : State) : Host.Outcome State Fault Refusal :=
  onHost s fun ch =>
    if ch.initialized then .next (s.finish ch (some .already) (some .reinit))
    else .next ((s.finish ch.begun (some .ok) none).register ch.cfg.timer)

/-- `PUT`, issue phase (R182). While another `PUT` holds the producer lock, the caller waits: `retryIssue` is its step
(R13, R188; log entry 4). -/
def execPut (d : List Byte) (s : State) : Host.Outcome State Fault Refusal :=
  onHost s fun ch =>
    if !ch.initialized then .next (s.finish ch (some .rejUninit) (some (.misuse .put)))
    else if ch.cfg.cap.bytes - 2 < d.length then .next (s.finish ch (some .rejLen) (some (.putInvalid .len)))
    else if Config.term ∈ d then .next (s.finish ch (some .rejTerm) (some (.putInvalid .term)))
    else match ch.putPending with
      | none => .next (s.finish (ch.takeLock d) none none)
      | some _ => .next (s.finish { ch with waiters := ch.waiters ++ [d] } none none)

/-- `RDY` (R184). -/
def execRdy (s : State) : Host.Outcome State Fault Refusal :=
  onHost s fun ch => .next (s.finish ch (some (.readyIs ch.messageReady)) none)

/-- `GET` (R185). -/
def execGet (s : State) : Host.Outcome State Fault Refusal :=
  onHost s fun ch =>
    if ch.state ≠ Code.rxDone then
      .next (s.finish ch (some (.message [])) (if ch.initialized then none else some (.misuse .get)))
    else if ch.rxLen.toNat ≤ ch.cfg.cap.bytes then
      .next (s.finish { ch with rxLen := 0#8 } (some (.message (ch.rxBuf.readRange ch.rxLen.toNat))) none)
    else .fault .bufferIndex

/-- `STATUS` (R186). -/
def execStatus (s : State) : Host.Outcome State Fault Refusal :=
  onHost s fun ch => .next (s.finish ch (some (.statusIs ch.statusWord)) none)

end Sys2Proof.Machine
end

