-- ==== Sys2Proof/Machine/TickIdle.lean ====
section
/-! DEFINITION. The tick rules of the idle states `NOTINIT` and `READY` (40_tick_common.md R107, R108). -/

namespace Sys2Proof.Machine

/-- R107: `skip`. -/
def notinitRule (_ : Lines) (ch : Channel) : Channel × Option Label := (ch, none)

/-- `TICK.NOTINIT` (R107). -/
def execTickNotinit (s : State) : Host.Outcome State Fault Refusal := onTick s inRange notinitRule

/-- R108: become the receiver, become the sender, or stay. -/
def readyRule (l : Lines) (ch : Channel) : Channel × Option Label :=
  if l.en = true ∧ l.rx = preambleSymbol 0 then
    ((ch.rxClear.drive (preambleSymbol 0) false).goto Code.rxStart, none)
  else if l.en = false ∧ ch.txReady = true then
    ((({ ch with txInProgress := true, txCursor := 0 }).drive (preambleSymbol 0) true).goto Code.txStart, none)
  else ((ch.drive Config.idle Config.idle).stay, none)

/-- `TICK.READY` (R108). -/
def execTickReady (s : State) : Host.Outcome State Fault Refusal := onTick s inRange readyRule

end Sys2Proof.Machine
end

