-- ==== Sys2Proof/Machine/TickRx.lean ====
section
/-! DEFINITION. The tick rules of the seven receive states (41_rx_states.md R120 to R126). -/

namespace Sys2Proof.Machine

/-- `PRE[tis + 1]` exists for `tis <= 3`; it is not read when `en = 0` (R120). -/
def rxStartGuard (l : Lines) (ch : Channel) : Option Fault :=
  faultUnless (decide (ch.tis ≤ 3) || !l.en) .tableIndex

/-- R120: validate and echo preamble symbols 1 to 4. -/
def rxStartRule (l : Lines) (ch : Channel) : Channel × Option Label :=
  if l.en = false then ch.enterError Code.rxAbort (.syncRx Code.rxStart ch.tis .en)
  else if l.rx ≠ preambleSymbol (ch.tis + 1) then ch.enterError Code.rxAbort (.syncRx Code.rxStart ch.tis .sym)
  else if ch.tis = 3 then ((ch.drive (preambleSymbol (ch.tis + 1)) false).goto Code.rxChar, none)
  else ((ch.drive (preambleSymbol (ch.tis + 1)) false).stay, none)

/-- `TICK.RX_START` (R120). -/
def execTickRxStart (s : State) : Host.Outcome State Fault Refusal := onTick s rxStartGuard rxStartRule

/-- A byte is stored at `rx_len` and its terminator at `rx_len + 1` when a byte completes and `rx_len` is not `CAP - 1`:
both are below `CAP` where `rx_len` is (R52, R121). -/
def rxCharGuard (l : Lines) (ch : Channel) : Option Fault :=
  faultUnless (decide (ch.rxLen.toNat < ch.cfg.cap.bytes) || !(l.en && decide (ch.tis % 8 = 7))) .bufferIndex

/-- A completed byte and its terminator are stored (R121). -/
def Channel.storeByte (ch : Channel) (b : Byte) : Channel :=
  { ch with
      rxBuf := (ch.rxBuf.write ch.rxLen.toNat b).write (ch.rxLen.toNat + 1) Config.term,
      rxLen := ch.rxLen + 1#8, rxShift := 0#8 }

/-- R121: shift in a data bit, or take the fall of `en` as the start of the postamble. -/
def rxCharRule (l : Lines) (ch : Channel) : Channel × Option Label :=
  if l.en = true then
    if ch.tis % 8 < 7 then
      ((({ ch with rxShift := shiftIn ch.rxShift l.rx (ch.tis % 8) }).drive Config.listen false).stay, none)
    else if ch.rxLen.toNat = ch.cfg.cap.bytes - 1 then ch.enterError Code.rxAbort (.overflow ch.rxLen)
    else (((ch.storeByte (shiftIn ch.rxShift l.rx (ch.tis % 8))).drive Config.listen false).stay, none)
  else if ch.tis % 8 = 0 ∧ l.rx = postambleSymbol 0 then
    ((ch.drive (postambleSymbol 0) false).goto Code.rxAck, none)
  else ch.enterError Code.rxErr (.syncRx Code.rxChar ch.tis .post)

/-- `TICK.RX_CHAR` (R121). -/
def execTickRxChar (s : State) : Host.Outcome State Fault Refusal := onTick s rxCharGuard rxCharRule

/-- `POST[tis + 1]` exists for `tis <= 2`; it is not read when `en = 1` (R122). -/
def rxAckGuard (l : Lines) (ch : Channel) : Option Fault :=
  faultUnless (decide (ch.tis ≤ 2) || l.en) .tableIndex

/-- R122: validate and echo postamble symbols 1 to 3. -/
def rxAckRule (l : Lines) (ch : Channel) : Channel × Option Label :=
  if l.en = true then ch.enterError Code.rxAbort (.syncRx Code.rxAck ch.tis .en)
  else if l.rx ≠ postambleSymbol (ch.tis + 1) then ch.enterError Code.rxErr (.syncRx Code.rxAck ch.tis .sym)
  else if ch.tis = 2 then ((ch.drive (postambleSymbol (ch.tis + 1)) false).goto Code.rxChecksum, none)
  else ((ch.drive (postambleSymbol (ch.tis + 1)) false).stay, none)

/-- `TICK.RX_ACK` (R122). -/
def execTickRxAck (s : State) : Host.Outcome State Fault Refusal := onTick s rxAckGuard rxAckRule

/-- The rule reads and writes indices below `rx_len` (R52, R123). -/
def rxChecksumGuard (_ : Lines) (ch : Channel) : Option Fault :=
  faultUnless (decide (ch.rxLen.toNat ≤ ch.cfg.cap.bytes)) .bufferIndex

/-- The verified message keeps its payload: the checksum byte is stripped and a terminator written in its place (R123). -/
def Channel.strip (ch : Channel) : Channel :=
  { ch with rxLen := ch.rxLen - 1#8, rxBuf := ch.rxBuf.write (ch.rxLen.toNat - 1) Config.term }

/-- R123: verify the trailing checksum byte and strip it. -/
def rxChecksumRule (_ : Lines) (ch : Channel) : Channel × Option Label :=
  let n := ch.rxLen.toNat
  let computed := xorFold (ch.rxBuf.readRange (n - 1))
  let received := ch.rxBuf.read (n - 1)
  if n ≤ 1 then ch.enterError Code.rxErr (.short ch.rxLen)
  else if computed = received then ((ch.strip.drive Config.idle Config.idle).goto Code.rxDone, none)
  else ch.enterError Code.rxErr (.checksum computed received)

/-- `TICK.RX_CHECKSUM` (R123). -/
def execTickRxChecksum (s : State) : Host.Outcome State Fault Refusal := onTick s rxChecksumGuard rxChecksumRule

/-- R124: clean up and return to `READY`. -/
def rxAbortRule (_ : Lines) (ch : Channel) : Channel × Option Label := (ch.rxCleanUp, none)

/-- `TICK.RX_ABORT` (R124). -/
def execTickRxAbort (s : State) : Host.Outcome State Fault Refusal := onTick s inRange rxAbortRule

/-- R125: the same as R124. -/
def rxErrRule (_ : Lines) (ch : Channel) : Channel × Option Label := (ch.rxCleanUp, none)

/-- `TICK.RX_ERR` (R125). -/
def execTickRxErr (s : State) : Host.Outcome State Fault Refusal := onTick s inRange rxErrRule

/-- R126: hold the message until `GET` has consumed it and the peer is idle. -/
def rxDoneRule (l : Lines) (ch : Channel) : Channel × Option Label :=
  if ch.rxLen = 0#8 ∧ l.en = false then ((ch.drive Config.idle Config.idle).goto Code.ready, none)
  else ((ch.drive Config.idle Config.idle).stay, none)

/-- `TICK.RX_DONE` (R126). -/
def execTickRxDone (s : State) : Host.Outcome State Fault Refusal := onTick s inRange rxDoneRule

end Sys2Proof.Machine
end

