-- ==== Sys2Proof/Machine/TickTx.lean ====
section
/-! DEFINITION. The tick rules of the six transmit states (42_tx_states.md R140 to R145). -/

namespace Sys2Proof.Machine

/-- `PRE[tis]` exists for `tis <= 4`; it is not read when `en = 1` (R140). -/
def txStartGuard (l : Lines) (ch : Channel) : Option Fault :=
  faultUnless (decide (ch.tis ≤ 4) || l.en) .tableIndex

/-- R140: check the echo of `PRE[tis]`, drive the next preamble symbol or the first data bit. -/
def txStartRule (l : Lines) (ch : Channel) : Channel × Option Label :=
  if l.en = true then ch.abandonTx (.collision Code.txStart ch.tis)
  else if l.rx ≠ preambleSymbol ch.tis then ch.abandonTx (.syncTx Code.txStart ch.tis .sym)
  else if ch.tis < 4 then ((ch.drive (preambleSymbol (ch.tis + 1)) true).stay, none)
  else ((({ ch with txCursor := 1 }).drive (ch.txBit 0) true).goto Code.txChar, none)

/-- `TICK.TX_START` (R140). -/
def execTickTxStart (s : State) : Host.Outcome State Fault Refusal := onTick s txStartGuard txStartRule

/-- `TxBit(tx_cursor)` reads `tx_buf[tx_cursor div 8]`, unless the rule aborts first (R52, R141, R163). -/
def txCharGuard (l : Lines) (ch : Channel) : Option Fault :=
  faultUnless (decide (ch.txCursor / 8 < ch.cfg.cap.bytes) || l.en || (l.rx != Config.listen)) .bufferIndex

/-- R141: drive the next frame bit while the receiver echoes `LISTEN`. -/
def txCharRule (l : Lines) (ch : Channel) : Channel × Option Label :=
  if l.en = true then ch.abandonTx (.collision Code.txChar ch.txCursor)
  else if l.rx ≠ Config.listen then ch.enterError Code.txErr (.syncTx Code.txChar ch.txCursor .listen)
  else
    let sent := ({ ch with txCursor := ch.txCursor + 1 }).drive (ch.txBit ch.txCursor) true
    if ch.txCursor + 1 = 8 * ch.txLen.toNat then (sent.goto Code.txEnd, none) else (sent.stay, none)

/-- `TICK.TX_CHAR` (R141). -/
def execTickTxChar (s : State) : Host.Outcome State Fault Refusal := onTick s txCharGuard txCharRule

/-- R142: release the activity line, drive the first postamble symbol. -/
def txEndRule (_ : Lines) (ch : Channel) : Channel × Option Label :=
  ((ch.drive (postambleSymbol 0) false).goto Code.txAck, none)

/-- `TICK.TX_END` (R142). -/
def execTickTxEnd (s : State) : Host.Outcome State Fault Refusal := onTick s inRange txEndRule

/-- `POST[tis]` exists for `tis <= 3`; it is not read when `en = 1` (R143). -/
def txAckGuard (l : Lines) (ch : Channel) : Option Fault :=
  faultUnless (decide (ch.tis ≤ 3) || l.en) .tableIndex

/-- R143: check the echo of `POST[tis]`, drive the next postamble symbol. -/
def txAckRule (l : Lines) (ch : Channel) : Channel × Option Label :=
  if l.en = true then ch.enterError Code.txErr (.collision Code.txAck ch.tis)
  else if l.rx ≠ postambleSymbol ch.tis then ch.enterError Code.txErr (.syncTx Code.txAck ch.tis .sym)
  else if ch.tis < 3 then ((ch.drive (postambleSymbol (ch.tis + 1)) false).stay, none)
  else ((ch.drive Config.idle Config.idle).goto Code.txDone, none)

/-- `TICK.TX_ACK` (R143). -/
def execTickTxAck (s : State) : Host.Outcome State Fault Refusal := onTick s txAckGuard txAckRule

/-- R144: clean up and return to `READY`, keeping the staged frame. -/
def txErrRule (_ : Lines) (ch : Channel) : Channel × Option Label := (ch.txCleanUp, none)

/-- `TICK.TX_ERR` (R144). -/
def execTickTxErr (s : State) : Host.Outcome State Fault Refusal := onTick s inRange txErrRule

/-- R145: the transmission is complete; the TX buffer is empty. -/
def txDoneRule (_ : Lines) (ch : Channel) : Channel × Option Label :=
  ((({ ch with txLen := 0#8, txCursor := 0, txReady := false, txInProgress := false }).drive
      Config.idle Config.idle).goto Code.ready, none)

/-- `TICK.TX_DONE` (R145). -/
def execTickTxDone (s : State) : Host.Outcome State Fault Refusal := onTick s inRange txDoneRule

end Sys2Proof.Machine
end

