-- ==== Sys2Proof/Machine/Dispatch.lean ====
section
/-! DEFINITION. One arm per instruction (30_encoding.md R74). A step on the channel that `State.active` selects. -/

namespace Sys2Proof.Machine

/-- The meaning of each instruction. -/
def exec (i : Instr) (s : State) : Host.Outcome State Fault Refusal :=
  match i with
  | .hostBegin => Sys2Proof.Machine.execBegin s
  | .hostPut d => Sys2Proof.Machine.execPut d s
  | .hostRdy => Sys2Proof.Machine.execRdy s
  | .hostGet => Sys2Proof.Machine.execGet s
  | .hostStatus => Sys2Proof.Machine.execStatus s
  | .tickNotinit => Sys2Proof.Machine.execTickNotinit s
  | .tickReady => Sys2Proof.Machine.execTickReady s
  | .tickRxStart => Sys2Proof.Machine.execTickRxStart s
  | .tickRxChar => Sys2Proof.Machine.execTickRxChar s
  | .tickRxAck => Sys2Proof.Machine.execTickRxAck s
  | .tickRxChecksum => Sys2Proof.Machine.execTickRxChecksum s
  | .tickRxAbort => Sys2Proof.Machine.execTickRxAbort s
  | .tickRxErr => Sys2Proof.Machine.execTickRxErr s
  | .tickRxDone => Sys2Proof.Machine.execTickRxDone s
  | .tickTxStart => Sys2Proof.Machine.execTickTxStart s
  | .tickTxChar => Sys2Proof.Machine.execTickTxChar s
  | .tickTxEnd => Sys2Proof.Machine.execTickTxEnd s
  | .tickTxAck => Sys2Proof.Machine.execTickTxAck s
  | .tickTxErr => Sys2Proof.Machine.execTickTxErr s
  | .tickTxDone => Sys2Proof.Machine.execTickTxDone s

end Sys2Proof.Machine
end

