-- ==== Sys2Proof/Machine/Delivery.lean ====
section
/-! DEFINITION. What each event of the interleaving does (20_memory.md R58), and how a table word is presented to the
machine. -/

namespace Sys2Proof.Machine

/-- A command string at the selected channel's host port (R71): the command runs, or is refused (R75, R187). -/
def deliverCommand (s : State) (bytes : List Byte) : Host.Outcome State Fault Refusal :=
  match decodeHost bytes with
  | some i => exec i s
  | none => refuseCommand s

/-- A tick event at the selected channel (R76, R104): the rule its state code selects runs; code 15 is a fault (R109). -/
def deliverTick (s : State) : Host.Outcome State Fault Refusal :=
  match s.self with
  | none => .refused .noSuchChannel
  | some ch =>
    match decodeTick ch.state with
    | some i => exec i s
    | none => .fault .unusedStateCode

/-- Tick source `t` delivers its next due tick event; with none due, nothing happens (R214, R216). -/
def deliverDue (s : State) (t : Nat) : Host.Outcome State Fault Refusal :=
  if t < s.nTimers then
    match s.nextDue t with
    | some c => deliverTick ((s.popDue t).select c)
    | none => .next { s with out := StepOut.none }
  else .refused .noSuchTimer

/-- The step of one event. -/
def deliver (s : State) (e : Event) : Host.Outcome State Fault Refusal :=
  match e with
  | .host c bytes => deliverCommand (s.select c) bytes
  | .issue c k => retryIssue (s.select c) k
  | .commit c => commitPut (s.select c)
  | .tick c => deliverTick (s.select c)
  | .strobe t => startPeriod s t
  | .deliver t => deliverDue s t
  | .flip c line => flipLine (s.select c) line
  | .latch c => latchLines (s.select c)

/-- A stretch of the interleaving: events one after another, stopping at the first fault or refusal (R58). -/
def deliverAll : List Event → State → Host.Outcome State Fault Refusal
  | [], s => .next s
  | e :: es, s =>
    match deliver s e with
    | .next t => deliverAll es t
    | .fault f => .fault f
    | .refused r => .refused r

/-- The step of a system to which nothing is presented: it waits (R58, R221; log entry 3). -/
def awaitEvent (s : State) : Host.Outcome State Fault Refusal := .next { s with out := StepOut.none }

/-- Present one instruction to channel 0 as the next event: a command string at its host port, or its state code and a
tick event (R70: format `T` is "selected by the 4-bit `state` code"). -/
def State.present (s : State) : Encoded → State
  | .host bytes => { s with queue := .host 0 bytes :: s.queue }
  | .tick code =>
    { s with chans := s.chans.modify 0 (fun ch => { ch with state := code }), queue := .tick 0 :: s.queue }

end Sys2Proof.Machine
end

