-- ==== Sys2Proof/Machine/Step.lean ====
section
/-! DEFINITION. One step of the system: the event at the head of the interleaving happens (20_memory.md R58). -/

namespace Sys2Proof.Machine

/-- One atomic step (R54, R58). -/
def step (s : State) : Host.Outcome State Fault Refusal :=
  match s.queue with
  | [] => awaitEvent s
  | e :: rest => deliver { s with queue := rest } e

/-- `s` with the instruction of a table word presented as the next event, on channel 0 (log entries 3 and 11). -/
def State.withFetchWord (s : State) (nbits w : Nat) : State := s.present (tableEncoded nbits w)

end Sys2Proof.Machine
end

