-- ==== Sys2Proof/Machine/Script.lean ====
section
/-! DEFINITION. The link script (30_encoding.md R79, R80): its lines, and the events each expands to. -/

namespace Sys2Proof.Machine

/-- A line of a link script (R79) or a pseudo-instruction (R80). `BEGIN`, `PUT`, `RDY`, `GET`, `STATUS` and `RAW` are
command strings. `RUN_UNTIL`, whose length depends on the run, is `runUntil`. -/
inductive ScriptLine where
  | host (chan : Nat) (bytes : List Byte)
  | tick (chan : Nat)
  | flip (chan : Nat) (line : InputLine)
  | run (periods : Nat)
  | waitPut (chan : Nat)
deriving DecidableEq, Repr

/-- The held steps of a channel's `PUT` callers that the interleaving "takes as soon as it is enabled" (R80): after any
event of the channel, the commit of the lock's holder, then a waiting caller's issue and commit. Not enabled, each is a
step in which nothing happens. -/
def settlePuts (c : Nat) : List Event := [.commit c, .issue c 0, .commit c]

/-- One period of the schedule: one tick event on each channel of the `ORDER` line (R80). -/
def periodEvents (order : List Nat) : List Event := order.flatMap fun c => .tick c :: settlePuts c

/-- The events a line expands to (R79, R80). -/
def ScriptLine.expand (order : List Nat) : ScriptLine → List Event
  | .host c bytes => .host c bytes :: settlePuts c
  | .tick c => .tick c :: settlePuts c
  | .flip c line => [.flip c line]
  | .run n => (List.replicate n (periodEvents order)).flatten
  | .waitPut _ => []

/-- A script as a queue of events. -/
def scriptEvents (order : List Nat) (script : List ScriptLine) : List Event :=
  script.flatMap (ScriptLine.expand order)

/-- `RUN_UNTIL cond`, for at most `fuel` periods: repeat a period until `cond` holds after a complete one (R80). -/
def runUntil (order : List Nat) (cond : State → Bool) : Nat → State → Host.Outcome State Fault Refusal
  | 0, s => .next s
  | k + 1, s =>
    match deliverAll (periodEvents order) s with
    | .next t => if cond t then .next t else runUntil order cond k t
    | .fault f => .fault f
    | .refused r => .refused r

end Sys2Proof.Machine
end

