-- ==== Sys2Proof/Safety.lean ====
section
/-! DEFINITION. What a sound state of the system is: the invariants of 10_state.md section 8, with what they rest on, and
the configurations the spec admits. -/

namespace Sys2Proof.Machine

/-! ### Conditions of a channel (R42) -/

/-- One of the seven `RX_*` codes 2 to 8. -/
abbrev Channel.receiving (ch : Channel) : Prop :=
  ch.state ∈ [Code.rxStart, Code.rxChar, Code.rxAck, Code.rxChecksum, Code.rxAbort, Code.rxErr, Code.rxDone]

/-- One of the six `TX_*` codes 9 to 14. -/
abbrev Channel.transmitting (ch : Channel) : Prop :=
  ch.state ∈ [Code.txStart, Code.txChar, Code.txEnd, Code.txAck, Code.txErr, Code.txDone]

/-- `NOTINIT` or `READY`. -/
abbrev Channel.idleState (ch : Channel) : Prop := ch.state ∈ [Code.notinit, Code.ready]

/-- The states in which the activity line is asserted (R40). -/
abbrev Channel.asserting (ch : Channel) : Prop := ch.state ∈ [Code.txStart, Code.txChar, Code.txEnd]

/-- The states whose data line is low (R40). -/
abbrev Channel.quiet (ch : Channel) : Prop :=
  ch.state ∈ [Code.notinit, Code.ready, Code.rxChecksum, Code.rxAbort, Code.rxErr, Code.rxDone, Code.txErr, Code.txDone]

/-! ### Invariants of a channel -/

/-- Control state (R38, R39, R40, R77): the state code is used, the flags and the output registers agree with it, and the
pins are driven exactly after `BEGIN` (R63). -/
structure Channel.ControlOk (ch : Channel) : Prop where
  used : ch.state ≠ Code.unused
  begun : ch.state = Code.notinit ↔ ch.initialized = false
  driven : ch.driven = ch.initialized
  busy : ch.txInProgress = true ↔ ch.transmitting
  enable : ch.txEn = true ↔ ch.asserting
  low : ch.quiet → ch.txOut = false

/-- A payload that `PUT` accepts (R34, R182). -/
structure PayloadOk (ch : Channel) (d : List Byte) : Prop where
  short : d.length ≤ ch.cfg.cap.bytes - 2
  noTerm : Config.term ∉ d

/-- Cursors, counters and staged payloads (R22, R31, R34, R41, R43): where each stands in each state. -/
structure Channel.CursorsOk (ch : Channel) : Prop where
  rxIdle : ¬ ch.receiving → ch.rxLen = 0#8
  txIdle : ¬ ch.transmitting → ch.txCursor = 0
  rxRoom : ch.rxLen.toNat ≤ ch.cfg.cap.bytes - 1
  txRoom : ch.txLen.toNat ≤ ch.cfg.cap.bytes - 1
  txBound : ch.txCursor ≤ 8 * ch.txLen.toNat
  staged : ch.txReady = true → 1 ≤ ch.txLen.toNat
  sending : ch.transmitting → 1 ≤ ch.txLen.toNat
  rxStart : ch.state = Code.rxStart → ch.tis ≤ 3 ∧ ch.rxLen = 0#8 ∧ ch.rxShift = 0#8
  rxChar : ch.state = Code.rxChar → ch.tis / 8 = ch.rxLen.toNat ∧ ch.rxShift.toNat < 2 ^ (ch.tis % 8)
  rxAck : ch.state = Code.rxAck → ch.tis ≤ 2
  txStart : ch.state = Code.txStart → ch.tis ≤ 4 ∧ ch.txCursor = 0
  txChar : ch.state = Code.txChar → ch.txCursor = ch.tis + 1 ∧ ch.txCursor < 8 * ch.txLen.toNat
  txAck : ch.state = Code.txAck → ch.tis ≤ 3
  txSent : ch.state ∈ [Code.txEnd, Code.txAck, Code.txDone] → ch.txCursor = 8 * ch.txLen.toNat
  pending : ∀ d, ch.putPending = some d → PayloadOk ch d ∧ ch.txReady = false
  waiting : ∀ d ∈ ch.waiters, PayloadOk ch d
  fresh : ch.initialized = false → ch.putPending = none ∧ ch.waiters = []

/-- Both buffers are in canonical form and hold no byte at or above `CAP` (R43, R50). -/
structure Channel.BuffersOk (ch : Channel) : Prop where
  rxWf : ch.rxBuf.wf
  txWf : ch.txBuf.wf
  rxIn : ∀ x ∈ ch.rxBuf, x.1 < ch.cfg.cap.bytes
  txIn : ∀ x ∈ ch.txBuf, x.1 < ch.cfg.cap.bytes

/-- What the buffers hold (R44, R161, R168): the terminator stands after the received bytes in every receive state, and
in `RX_DONE` while a message waits; the staged frame is valid and its payload holds no terminator. -/
structure Channel.FramingOk (ch : Channel) : Prop where
  terminated : ch.receiving → (ch.state = Code.rxDone → ch.rxLen ≠ 0#8) →
    ch.rxBuf.read ch.rxLen.toNat = Config.term
  valid : xorFold (ch.txBuf.readRange ch.txLen.toNat) = 0#8
  noTerm : ∀ i, i + 1 < ch.txLen.toNat → ch.txBuf.read i ≠ Config.term

/-! ### Invariants of the system -/

/-- Every channel of the system satisfies `P`. -/
abbrev State.AllChannels (s : State) (P : Channel → Prop) : Prop := ∀ ch ∈ s.chans, P ch

/-- The registry holds each channel that has begun exactly once, with its own tick source, and no other (R215). -/
structure State.RegistryOk (s : State) : Prop where
  once : (s.registry.map (·.chan)).Nodup
  own : ∀ r ∈ s.registry, ∃ ch : Channel, s.chans[r.chan]? = some ch ∧ r.timer = ch.cfg.timer ∧ ch.initialized = true
  every : ∀ (c : Nat) (ch : Channel), s.chans[c]? = some ch → ch.initialized = true → c ∈ s.registry.map (·.chan)

/-! ### Admitted configurations -/

/-- Wires join channels in pairs (R56: "A link joins exactly two channels"), and every channel's tick source exists (R7). -/
structure State.ConfigOk (s : State) : Prop where
  paired : ∀ (c : Nat) (ch : Channel), s.chans[c]? = some ch → ch.cfg.peer ≠ c ∧
    ∃ p : Channel, s.chans[ch.cfg.peer]? = some p ∧ p.cfg.peer = c
  timed : ∀ ch ∈ s.chans, ch.cfg.timer < s.nTimers

end Sys2Proof.Machine
end

