-- ==== Sys2Proof/Certificates/Slice0/Obligations.lean ====
section
/-! DEFINITION. The statements for the provers, from the numbered rules of spec/. Expected results are written from the
spec's pseudocode as record updates of the channel; `State.finish` and `State.afterTick` put a channel back into the
system (every other channel unchanged: `StepsTouchOnlyTheirOwnChannel`). -/

open Sys2Proof Sys2Proof.Machine

namespace Sys2Proof.Claims

/-- A string of a reserved code, or a malformed `PUT` string (R72, R75). -/
def refusedString (bytes : List Byte) : Prop :=
  (∃ c rest, bytes = c :: rest ∧ (c = 0x00#8 ∨ 0x06 ≤ c.toNat)) ∨
    ∃ rest, bytes = 0x02#8 :: rest ∧ rest.length ≠ 1 + (rest.headD 0#8).toNat

/-- The bytes of `rx_buf` an instruction stores to, as its rule computes them (R105, R121, R123, R181). -/
def storedRx (i : Instr) (l : Lines) (ch : Channel) : List Nat :=
  match i with
  | .hostBegin => if ch.initialized then [] else [0]
  | .tickReady => if l.en = true ∧ l.rx = true then [0] else []
  | .tickRxChar =>
    if l.en = true ∧ ch.tis % 8 = 7 ∧ ch.rxLen.toNat ≠ ch.cfg.cap.bytes - 1 then [ch.rxLen.toNat, ch.rxLen.toNat + 1] else []
  | .tickRxChecksum =>
    if 1 < ch.rxLen.toNat ∧ xorFold (ch.rxBuf.readRange (ch.rxLen.toNat - 1)) = ch.rxBuf.read (ch.rxLen.toNat - 1)
    then [ch.rxLen.toNat - 1] else []
  | .tickRxAbort => [0]
  | .tickRxErr => [0]
  | _ => []

/-- The instructions that are `PUT` commands. -/
def isPut : Instr → Bool
  | .hostPut _ => true
  | _ => false

/-- A link of channels `a` and `b` of the system, cross-wired, both begun, idle in `READY` with low outputs and nothing
injected (R56, R57). -/
structure IdleLink (s : State) (a b : Nat) (cha chb : Channel) : Prop where
  ha : s.chans[a]? = some cha
  hb : s.chans[b]? = some chb
  ne : a ≠ b
  wired : cha.cfg.peer = b ∧ chb.cfg.peer = a
  driven : cha.driven = true ∧ chb.driven = true
  ready : cha.state = Code.ready ∧ chb.state = Code.ready
  low : cha.txOut = false ∧ cha.txEn = false ∧ chb.txOut = false ∧ chb.txEn = false
  clean : cha.inject = Injection.none ∧ chb.inject = Injection.none

/-- One period of the fault-free schedule (R57): `a` ticks, then `b`. -/
def period (a b : Nat) : List Event := [.tick a, .tick b]

/-- One period of simultaneous sampling (R57, R235): both sample before either steps. -/
def lockstep (a b : Nat) : List Event := [.latch a, .latch b, .tick a, .tick b]

/-- The number of 1 bits of a byte. -/
def popcount (b : Byte) : Nat := ((List.range 8).map fun j => (b.getLsbD j).toNat).sum

/-- The number of 1 bits of a list of bytes. -/
def flips (m : List Byte) : Nat := (m.map popcount).sum

end Sys2Proof.Claims

open Sys2Proof.Claims

/-! ### Encodings -/

/-- Decoding the encoding of a well-formed instruction gives it back (R71, R72, R74, R78). -/
def Obligations.DecodeOfEncodeIsIdentity : Prop :=
  ∀ i : Instr, i.wellFormed = true → decode (encode i) = some i

/-- Every string or state code that decodes is the encoding of a well-formed instruction: no two words share an
instruction (R71, R72, R74). -/
def Obligations.EncodeOfDecodeIsIdentity : Prop :=
  ∀ (w : Encoded) (i : Instr), decode w = some i → i.wellFormed = true ∧ encode i = w

/-- Words written out from the spec's tables decode to what they stand for (R71, R74). -/
def Obligations.SpecWordsDecode : Prop :=
  decode (.host [0x01#8]) = some .hostBegin ∧ decode (.host [0x02#8, 0x01#8, 0x41#8]) = some (.hostPut [0x41#8]) ∧
  decode (.host [0x04#8]) = some .hostGet ∧ decode (.tick 0x1#4) = some .tickReady ∧
  decode (.tick 0x3#4) = some .tickRxChar ∧ decode (.tick 0xE#4) = some .tickTxDone ∧
  decode (.host [0x07#8]) = none ∧ decode (.host [0x02#8, 0x02#8, 0x41#8]) = none ∧ decode (.tick 0xF#4) = none

/-- R187: "A reserved command code, or a malformed `PUT` string, changes no state and returns `0xFF`". -/
def Obligations.ReservedAndMalformedCommandsAreRefused : Prop :=
  ∀ (s : State) (c : Nat) (ch : Channel) (bytes : List Byte), s.chans[c]? = some ch → refusedString bytes →
    deliver s (.host c bytes) =
      .next { s with active := c, out := { chan := c, resp := some .refusedCode, label := none } } ∧
    Response.refusedCode.bytes = [0xFF#8]

/-! ### Steps run decoded instructions -/

/-- When the next event is a command string that decodes, the step is the command's meaning on that channel (R71, R180). -/
def Obligations.StepRunsDecodedCommand : Prop :=
  ∀ (s : State) (c : Nat) (bytes : List Byte) (rest : List Event) (i : Instr),
    s.queue = .host c bytes :: rest → decodeHost bytes = some i → i.wellFormed = true →
    step s = exec i { s with queue := rest, active := c }

/-- R104: "a tick step runs the one state rule selected by `state`". -/
def Obligations.StepRunsSelectedTickRule : Prop :=
  ∀ (s : State) (c : Nat) (ch : Channel) (rest : List Event) (i : Instr),
    s.queue = .tick c :: rest → s.chans[c]? = some ch → decodeTick ch.state = some i →
    step s = exec i { s with queue := rest, active := c }

/-- Where the machine stops: a tick event that finds state code 15 (R77, R109); a buffer index at or above `CAP` ("A model
may treat an out-of-range access as a fault", R52; log entry 8); a handshake symbol past the end of its table (the model's
choice, log entry 7). With the tick rules below, every input of every instruction is covered. -/
def Obligations.OutOfRangeAccessesFault : Prop :=
  (∀ (s : State) (c : Nat) (ch : Channel) (rest : List Event), s.queue = .tick c :: rest → s.chans[c]? = some ch →
    ch.state = 15#4 → step s = .fault .unusedStateCode) ∧
  ∀ (s : State) (ch : Channel), s.self = some ch →
    ((s.sampled ch).en = true → 4 ≤ ch.tis → exec .tickRxStart s = .fault .tableIndex) ∧
    ((s.sampled ch).en = false → 3 ≤ ch.tis → exec .tickRxAck s = .fault .tableIndex) ∧
    ((s.sampled ch).en = false → 5 ≤ ch.tis → exec .tickTxStart s = .fault .tableIndex) ∧
    ((s.sampled ch).en = false → 4 ≤ ch.tis → exec .tickTxAck s = .fault .tableIndex) ∧
    ((s.sampled ch).en = true → ch.tis % 8 = 7 → ch.cfg.cap.bytes ≤ ch.rxLen.toNat →
      exec .tickRxChar s = .fault .bufferIndex) ∧
    (ch.cfg.cap.bytes < ch.rxLen.toNat → exec .tickRxChecksum s = .fault .bufferIndex) ∧
    ((s.sampled ch).en = false → (s.sampled ch).rx = true → 8 * ch.cfg.cap.bytes ≤ ch.txCursor →
      exec .tickTxChar s = .fault .bufferIndex) ∧
    (ch.state = 8#4 → ch.cfg.cap.bytes < ch.rxLen.toNat → exec .hostGet s = .fault .bufferIndex) ∧
    (∀ d : List Byte, ch.txInProgress = false → ch.putPending = some d → ch.cfg.cap.bytes ≤ d.length →
      commitPut s = .fault .bufferIndex)

/-- The events of the queue happen one after another, each as one step (R58). -/
def Obligations.QueueRunsAsSteps : Prop :=
  ∀ (es rest : List Event) (s t : State), deliverAll es { s with queue := rest } = .next t →
    Host.Core.run Sys2Proof.core es.length { s with queue := es ++ rest } = .next t

/-! ### Host commands -/

/-- The first `BEGIN` (R181): every field it writes, its registration and its response; from power-on, the "after first
`BEGIN`" column of R230. -/
def Obligations.FirstBeginInitializesChannel : Prop :=
  ∀ (s : State) (ch : Channel), s.self = some ch → ch.initialized = false →
    ∃ t ch', exec .hostBegin s = .next t ∧ t.self = some ch' ∧ t.chans = s.chans.set s.active ch' ∧
      ch' = { ch with
        initialized := true, state := 1#4, tis := 0, rxLen := 0#8, rxBuf := ch'.rxBuf, rxShift := 0#8, txLen := 0#8,
        txCursor := 0, txReady := false, txInProgress := false, driven := true, txOut := false, txEn := false } ∧
      (ch.rxBuf.wf → ch'.rxBuf.read 0 = 0x00#8) ∧ (∀ a, a ≠ 0 → ch'.rxBuf.read a = ch.rxBuf.read a) ∧
      t.registry = s.registry ++ [{ timer := ch.cfg.timer, chan := s.active }] ∧
      t.out = { chan := s.active, resp := some .ok, label := none } ∧
      (ch.putPending = none → ch'.statusWord = 0x0011#16)

/-- A second or later `BEGIN` changes nothing, answers `ALREADY` and raises `E_REINIT` (R181, R234). -/
def Obligations.LaterBeginChangesNothing : Prop :=
  ∀ (s : State) (ch : Channel), s.self = some ch → ch.initialized = true →
    exec .hostBegin s =
      .next { s with out := { chan := s.active, resp := some .already, label := some .reinit } }

/-- `PUT`'s rejections, tested in order, each without a state change (R182, R204). -/
def Obligations.PutRejectionsChangeNothing : Prop :=
  ∀ (s : State) (ch : Channel) (d : List Byte), s.self = some ch →
    (ch.initialized = false → exec (.hostPut d) s =
      .next { s with out := { chan := s.active, resp := some .rejUninit, label := some (.misuse .put) } }) ∧
    (ch.initialized = true → ch.cfg.cap.bytes - 2 < d.length → exec (.hostPut d) s =
      .next { s with out := { chan := s.active, resp := some .rejLen, label := some (.putInvalid .len) } }) ∧
    (ch.initialized = true → d.length ≤ ch.cfg.cap.bytes - 2 → 0x00#8 ∈ d → exec (.hostPut d) s =
      .next { s with out := { chan := s.active, resp := some .rejTerm, label := some (.putInvalid .term) } })

/-- `PUT`'s issue phase takes the free producer lock and clears `tx_ready`; while the lock is held, the caller waits and
nothing else changes. Once it is free, any waiting caller may take it next; while it is held, none does (R182, R188; the
list of waiting callers and the event that retries one are the model's, log entry 4). -/
def Obligations.PutIssueTakesOrAwaitsLock : Prop :=
  (∀ (s : State) (ch : Channel) (d : List Byte), s.self = some ch → ch.initialized = true →
    d.length ≤ ch.cfg.cap.bytes - 2 → 0x00#8 ∉ d →
    (ch.putPending = none →
      exec (.hostPut d) s = .next (s.finish { ch with putPending := some d, txReady := false } none none)) ∧
    (ch.putPending ≠ none →
      exec (.hostPut d) s = .next (s.finish { ch with waiters := ch.waiters ++ [d] } none none))) ∧
  ∀ (s : State) (c : Nat) (ch : Channel) (k : Nat) (d : List Byte), s.chans[c]? = some ch → ch.waiters[k]? = some d →
    (ch.putPending = none → deliver s (.issue c k) = .next ((s.select c).finish
      { ch with putPending := some d, txReady := false, waiters := ch.waiters.eraseIdx k } none none)) ∧
    (ch.putPending ≠ none → deliver s (.issue c k) =
      .next { s with active := c, out := { chan := c, resp := none, label := none } })

/-- `PUT`'s commit phase writes the frame, arms the transmission, releases the lock and answers true; while
`tx_in_progress` is 1, or nothing is pending, it does not happen (R162, R183). -/
def Obligations.PutCommitStagesFrame : Prop :=
  ∀ (s : State) (c : Nat) (ch : Channel), s.chans[c]? = some ch →
    (∀ d : List Byte, ch.txInProgress = false → ch.putPending = some d → d.length ≤ ch.cfg.cap.bytes - 2 →
      ch.txBuf.wf →
      ∃ t ch', deliver s (.commit c) = .next t ∧ t.chans = s.chans.set c ch' ∧
        ch' = { ch with
          txBuf := ch'.txBuf, txLen := ch'.txLen, txCursor := 0, txReady := true, putPending := none } ∧
        ch'.txLen.toNat = d.length + 1 ∧
        (∀ i, i < d.length → ch'.txBuf.read i = d.getD i 0#8) ∧ ch'.txBuf.read d.length = xorFold d ∧
        (∀ a, d.length < a → ch'.txBuf.read a = ch.txBuf.read a) ∧
        t.out = { chan := c, resp := some .putTrue, label := none }) ∧
    (ch.txInProgress = true ∨ ch.putPending = none →
      deliver s (.commit c) = .next { s with active := c, out := { chan := c, resp := none, label := none } })

/-- R184: `return (state = RX_DONE and rx_len > 0)`; no state changes and no event. -/
def Obligations.RdyAnswersMessageWaiting : Prop :=
  ∀ (s : State) (ch : Channel), s.self = some ch →
    exec .hostRdy s = .next { s with out :=
      { chan := s.active, resp := some (.readyIs (decide (ch.state = 8#4 ∧ 0 < ch.rxLen.toNat))), label := none } } ∧
    (Response.readyIs true).bytes = [0x01#8] ∧ (Response.readyIs false).bytes = [0x00#8]

/-- `GET` in `RX_DONE` returns the waiting bytes and resets `rx_len`, writing nothing else; elsewhere it returns empty,
with `E_MISUSE` before `BEGIN` (R185). -/
def Obligations.GetReturnsMessageOnce : Prop :=
  ∀ (s : State) (ch : Channel), s.self = some ch →
    (ch.state = 8#4 → ch.rxLen.toNat ≤ ch.cfg.cap.bytes →
      exec .hostGet s = .next { s with
        chans := s.chans.set s.active { ch with rxLen := 0#8 },
        out := { chan := s.active, resp := some (.message (ch.rxBuf.readRange ch.rxLen.toNat)), label := none } }) ∧
    (ch.state ≠ 8#4 → exec .hostGet s = .next { s with out :=
        { chan := s.active, resp := some (.message []),
          label := if ch.initialized then none else some (.misuse .get) } })

/-- R191, R189: of two `GET`s in a row on a waiting message, the first returns it and the second returns empty; `RDY`
answers 1 before and 0 after. -/
def Obligations.SecondGetReturnsEmpty : Prop :=
  ∀ (s : State) (c : Nat) (ch : Channel), s.chans[c]? = some ch → ch.state = 8#4 → 0 < ch.rxLen.toNat →
    ch.rxLen.toNat ≤ ch.cfg.cap.bytes →
    ∃ t u v w, deliver s (.host c [0x03#8]) = .next t ∧ t.out.resp = some (.readyIs true) ∧
      deliver t (.host c [0x04#8]) = .next u ∧ u.out.resp = some (.message (ch.rxBuf.readRange ch.rxLen.toNat)) ∧
      deliver u (.host c [0x04#8]) = .next v ∧ v.out.resp = some (.message []) ∧
      deliver v (.host c [0x03#8]) = .next w ∧ w.out.resp = some (.readyIs false)

/-- `STATUS` returns the word of R37, low byte first, and changes nothing (R186, R73). -/
def Obligations.StatusReturnsStatusWord : Prop :=
  ∀ (s : State) (ch : Channel), s.self = some ch →
    ∃ w : BitVec 16, exec .hostStatus s =
        .next { s with out := { chan := s.active, resp := some (.statusIs w), label := none } } ∧
      w.extractLsb' 0 4 = ch.state ∧ w.getLsbD 4 = ch.initialized ∧ w.getLsbD 5 = ch.txReady ∧
      w.getLsbD 6 = ch.txInProgress ∧ w.getLsbD 7 = ch.putPending.isSome ∧ w.extractLsb' 8 8 = ch.rxLen ∧
      (Response.statusIs w).bytes = [w.extractLsb' 0 8, w.extractLsb' 8 8]

/-- Before `BEGIN` (R211), whatever the harness has injected: `PUT` answers `REJ_UNINIT`, `GET` empty, `RDY` 0, `STATUS`
0x0000, and no channel and no registration changes; a tick event leaves every field the spec gives the channel as before
and no event. That it consumes the harness's injection is the model's choice (log entry 12). -/
def Obligations.NothingHappensBeforeBegin : Prop :=
  ∀ (s : State) (c : Nat) (cfg : ChanConfig) (inj : Injection) (d : List Byte),
    s.chans[c]? = some { Channel.powerOn cfg with inject := inj } → d.length ≤ 255 →
    (∃ t, deliver s (.host c (0x02#8 :: BitVec.ofNat 8 d.length :: d)) = .next t ∧ t.chans = s.chans ∧
      t.registry = s.registry ∧ t.out.resp = some .rejUninit) ∧
    (∃ t, deliver s (.host c [0x04#8]) = .next t ∧ t.chans = s.chans ∧ t.registry = s.registry ∧
      t.out.resp = some (.message [])) ∧
    (∃ t, deliver s (.host c [0x03#8]) = .next t ∧ t.chans = s.chans ∧ t.registry = s.registry ∧
      t.out.resp = some (.readyIs false)) ∧
    (∃ t, deliver s (.host c [0x05#8]) = .next t ∧ t.chans = s.chans ∧ t.registry = s.registry ∧
      t.out.resp = some (.statusIs 0x0000#16)) ∧
    (∃ t, deliver s (.tick c) = .next t ∧ t.chans = s.chans.set c (Channel.powerOn cfg) ∧ t.registry = s.registry ∧
      t.out.label = none)

/-! ### Tick rules -/

/-- R107: at `NOTINIT` the step writes no field of the channel and raises no event. What every tick step consumes of the
environment is all that changes: the harness's injections and the count of drawn levels (R63, R64; the model's own fields,
log entries 5 and 12). `State.afterTick` in the statements below adds exactly this. -/
def Obligations.NotinitTickWritesNothing : Prop :=
  decodeTick 0#4 = some .tickNotinit ∧
  ∀ (s : State) (ch : Channel), s.self = some ch → exec .tickNotinit s =
    .next { s with chans := s.chans.set s.active { ch with inject := Injection.none }, draws := s.drawsAfterSample ch,
                   out := { chan := s.active, resp := none, label := none } }

/-- `TICK.READY` for every sampled input (R108, R105). -/
def Obligations.ReadyTickRule : Prop :=
  decodeTick 1#4 = some .tickReady ∧
  ∀ (s : State) (ch : Channel), s.self = some ch →
    exec .tickReady s = .next (s.afterTick ch
      (if (s.sampled ch).en = true ∧ (s.sampled ch).rx = true then
        ({ ch with rxLen := 0#8, rxBuf := ch.rxBuf.write 0 0x00#8, rxShift := 0#8,
                   txOut := true, txEn := false, state := 2#4, tis := 0 }, none)
      else if (s.sampled ch).en = false ∧ ch.txReady = true then
        ({ ch with txOut := true, txEn := true, txInProgress := true, txCursor := 0, state := 9#4, tis := 0 }, none)
      else ({ ch with txOut := false, txEn := false, tis := ch.tis + 1 }, none)))

/-- `TICK.RX_START` for every sampled input at the values of `tis` the rule gives it (R120). -/
def Obligations.RxStartTickRule : Prop :=
  decodeTick 2#4 = some .tickRxStart ∧
  ∀ (s : State) (ch : Channel) (sym : Level), s.self = some ch → ((s.sampled ch).en = true → ch.tis ≤ 3) →
    sym = [true, false, true, false, true].getD (ch.tis + 1) false →
    exec .tickRxStart s = .next (s.afterTick ch
      (if (s.sampled ch).en = false then
        ({ ch with txOut := false, txEn := false, state := 6#4, tis := 0 }, some (.syncRx 2#4 ch.tis .en))
      else if (s.sampled ch).rx ≠ sym then
        ({ ch with txOut := false, txEn := false, state := 6#4, tis := 0 }, some (.syncRx 2#4 ch.tis .sym))
      else if ch.tis = 3 then ({ ch with txOut := sym, txEn := false, state := 3#4, tis := 0 }, none)
      else ({ ch with txOut := sym, txEn := false, tis := ch.tis + 1 }, none)))

/-- `TICK.RX_CHAR` on a data tick, `en = 1` (R121): a bit, an overflow, or a completed byte. -/
def Obligations.RxCharDataTickRule : Prop :=
  decodeTick 3#4 = some .tickRxChar ∧
  ∀ (s : State) (ch : Channel) (b : Byte), s.self = some ch → (s.sampled ch).en = true →
    (ch.tis % 8 = 7 → ch.rxLen.toNat < ch.cfg.cap.bytes) →
    b = ch.rxShift ||| (BitVec.setWidth 8 (BitVec.ofBool (s.sampled ch).rx) <<< (ch.tis % 8)) →
    exec .tickRxChar s = .next (s.afterTick ch
      (if ch.tis % 8 < 7 then
        ({ ch with rxShift := b, txOut := true, txEn := false, tis := ch.tis + 1 }, none)
      else if ch.rxLen.toNat = ch.cfg.cap.bytes - 1 then
        ({ ch with txOut := false, txEn := false, state := 6#4, tis := 0 }, some (.overflow ch.rxLen))
      else
        ({ ch with rxBuf := (ch.rxBuf.write ch.rxLen.toNat b).write (ch.rxLen.toNat + 1) 0x00#8,
                   rxLen := ch.rxLen + 1#8, rxShift := 0#8, txOut := true, txEn := false, tis := ch.tis + 1 }, none)))

/-- `TICK.RX_CHAR` at the fall of `en` (R121): the start of the postamble, or an error. -/
def Obligations.RxCharFallTickRule : Prop :=
  ∀ (s : State) (ch : Channel), s.self = some ch → (s.sampled ch).en = false →
    exec .tickRxChar s = .next (s.afterTick ch
      (if ch.tis % 8 = 0 ∧ (s.sampled ch).rx = true then
        ({ ch with txOut := true, txEn := false, state := 4#4, tis := 0 }, none)
      else ({ ch with txOut := false, txEn := false, state := 7#4, tis := 0 }, some (.syncRx 3#4 ch.tis .post))))

/-- A completed byte and the terminator after it read back from the buffer (R121, R168). -/
def Obligations.CompletedByteIsStored : Prop :=
  ∀ (s t : State) (ch ch' : Channel), s.self = some ch → ch.rxBuf.wf → (s.sampled ch).en = true → ch.tis % 8 = 7 →
    ch.rxLen.toNat + 1 < ch.cfg.cap.bytes → exec .tickRxChar s = .next t → t.self = some ch' →
    ch'.rxBuf.read ch.rxLen.toNat = ch.rxShift ||| (if (s.sampled ch).rx then 0x80#8 else 0x00#8) ∧
    ch'.rxBuf.read (ch.rxLen.toNat + 1) = 0x00#8 ∧ ch'.rxLen.toNat = ch.rxLen.toNat + 1

/-- `TICK.RX_ACK` for every sampled input at the values of `tis` the rule gives it (R122). -/
def Obligations.RxAckTickRule : Prop :=
  decodeTick 4#4 = some .tickRxAck ∧
  ∀ (s : State) (ch : Channel) (sym : Level), s.self = some ch → ((s.sampled ch).en = false → ch.tis ≤ 2) →
    sym = [true, false, true, false].getD (ch.tis + 1) false →
    exec .tickRxAck s = .next (s.afterTick ch
      (if (s.sampled ch).en = true then
        ({ ch with txOut := false, txEn := false, state := 6#4, tis := 0 }, some (.syncRx 4#4 ch.tis .en))
      else if (s.sampled ch).rx ≠ sym then
        ({ ch with txOut := false, txEn := false, state := 7#4, tis := 0 }, some (.syncRx 4#4 ch.tis .sym))
      else if ch.tis = 2 then ({ ch with txOut := sym, txEn := false, state := 5#4, tis := 0 }, none)
      else ({ ch with txOut := sym, txEn := false, tis := ch.tis + 1 }, none)))

/-- `TICK.RX_CHECKSUM` (R123): verify and strip, whatever the sampled inputs. -/
def Obligations.RxChecksumTickRule : Prop :=
  decodeTick 5#4 = some .tickRxChecksum ∧
  ∀ (s : State) (ch : Channel) (sum last : Byte), s.self = some ch → ch.rxLen.toNat ≤ ch.cfg.cap.bytes →
    sum = xorFold (ch.rxBuf.readRange (ch.rxLen.toNat - 1)) → last = ch.rxBuf.read (ch.rxLen.toNat - 1) →
    exec .tickRxChecksum s = .next (s.afterTick ch
      (if ch.rxLen.toNat ≤ 1 then
        ({ ch with txOut := false, txEn := false, state := 7#4, tis := 0 }, some (.short ch.rxLen))
      else if sum = last then
        ({ ch with rxLen := ch.rxLen - 1#8, rxBuf := ch.rxBuf.write (ch.rxLen.toNat - 1) 0x00#8,
                   txOut := false, txEn := false, state := 8#4, tis := 0 }, none)
      else
        ({ ch with txOut := false, txEn := false, state := 7#4, tis := 0 }, some (.checksum sum last))))

/-- `TICK.RX_ABORT` and `TICK.RX_ERR` clean up alike and return to `READY`, whatever the sampled inputs (R124, R125). -/
def Obligations.ReceiveErrorCleanUpRule : Prop :=
  decodeTick 6#4 = some .tickRxAbort ∧ decodeTick 7#4 = some .tickRxErr ∧
  ∀ (s : State) (ch ch' : Channel), s.self = some ch →
    ch' = { ch with rxLen := 0#8, rxBuf := ch.rxBuf.write 0 0x00#8, rxShift := 0#8, txInProgress := false,
                    txOut := false, txEn := false, state := 1#4, tis := 0 } →
    exec .tickRxAbort s = .next (s.afterTick ch (ch', none)) ∧ exec .tickRxErr s = .next (s.afterTick ch (ch', none))

/-- `TICK.RX_DONE` (R126). -/
def Obligations.RxDoneTickRule : Prop :=
  decodeTick 8#4 = some .tickRxDone ∧
  ∀ (s : State) (ch : Channel), s.self = some ch →
    exec .tickRxDone s = .next (s.afterTick ch
      (if ch.rxLen = 0#8 ∧ (s.sampled ch).en = false then
        ({ ch with txOut := false, txEn := false, state := 1#4, tis := 0 }, none)
      else ({ ch with txOut := false, txEn := false, tis := ch.tis + 1 }, none)))

/-- `TICK.TX_START` for every sampled input at the values of `tis` the rule gives it (R140, R106). -/
def Obligations.TxStartTickRule : Prop :=
  decodeTick 9#4 = some .tickTxStart ∧
  ∀ (s : State) (ch : Channel), s.self = some ch → ((s.sampled ch).en = false → ch.tis ≤ 4) →
    exec .tickTxStart s = .next (s.afterTick ch
      (if (s.sampled ch).en = true then
        ({ ch with txCursor := 0, txInProgress := false, txOut := false, txEn := false, state := 1#4, tis := 0 },
          some (.collision 9#4 ch.tis))
      else if [true, false, true, false, true][ch.tis]? ≠ some (s.sampled ch).rx then
        ({ ch with txCursor := 0, txInProgress := false, txOut := false, txEn := false, state := 1#4, tis := 0 },
          some (.syncTx 9#4 ch.tis .sym))
      else if ch.tis < 4 then
        ({ ch with txOut := [true, false, true, false, true].getD (ch.tis + 1) false, txEn := true,
                   tis := ch.tis + 1 }, none)
      else
        ({ ch with txOut := (ch.txBuf.read 0).getLsbD 0, txEn := true, txCursor := 1, state := 10#4, tis := 0 }, none)))

/-- `TICK.TX_CHAR` for every sampled input, the cursor within the buffer (R141, R163). -/
def Obligations.TxCharTickRule : Prop :=
  decodeTick 10#4 = some .tickTxChar ∧
  ∀ (s : State) (ch : Channel), s.self = some ch →
    ((s.sampled ch).en = false → (s.sampled ch).rx = true → ch.txCursor < 8 * ch.cfg.cap.bytes) →
    exec .tickTxChar s = .next (s.afterTick ch
      (if (s.sampled ch).en = true then
        ({ ch with txCursor := 0, txInProgress := false, txOut := false, txEn := false, state := 1#4, tis := 0 },
          some (.collision 10#4 ch.txCursor))
      else if (s.sampled ch).rx = false then
        ({ ch with txOut := false, txEn := false, state := 13#4, tis := 0 },
          some (.syncTx 10#4 ch.txCursor .listen))
      else if ch.txCursor + 1 = 8 * ch.txLen.toNat then
        ({ ch with txOut := (ch.txBuf.read (ch.txCursor / 8)).getLsbD (ch.txCursor % 8), txEn := true,
                   txCursor := ch.txCursor + 1, state := 11#4, tis := 0 }, none)
      else
        ({ ch with txOut := (ch.txBuf.read (ch.txCursor / 8)).getLsbD (ch.txCursor % 8), txEn := true,
                   txCursor := ch.txCursor + 1, tis := ch.tis + 1 }, none)))

/-- R142: `TICK.TX_END` de-asserts the activity line and drives `POST[0]`, whatever the sampled inputs. -/
def Obligations.TxEndTickRule : Prop :=
  decodeTick 11#4 = some .tickTxEnd ∧
  ∀ (s : State) (ch : Channel), s.self = some ch →
    exec .tickTxEnd s = .next (s.afterTick ch
      ({ ch with txOut := true, txEn := false, state := 12#4, tis := 0 }, none))

/-- `TICK.TX_ACK` for every sampled input at the values of `tis` the rule gives it (R143). -/
def Obligations.TxAckTickRule : Prop :=
  decodeTick 12#4 = some .tickTxAck ∧
  ∀ (s : State) (ch : Channel), s.self = some ch → ((s.sampled ch).en = false → ch.tis ≤ 3) →
    exec .tickTxAck s = .next (s.afterTick ch
      (if (s.sampled ch).en = true then
        ({ ch with txOut := false, txEn := false, state := 13#4, tis := 0 }, some (.collision 12#4 ch.tis))
      else if [true, false, true, false][ch.tis]? ≠ some (s.sampled ch).rx then
        ({ ch with txOut := false, txEn := false, state := 13#4, tis := 0 }, some (.syncTx 12#4 ch.tis .sym))
      else if ch.tis < 3 then
        ({ ch with txOut := [true, false, true, false].getD (ch.tis + 1) false, txEn := false,
                   tis := ch.tis + 1 }, none)
      else ({ ch with txOut := false, txEn := false, state := 14#4, tis := 0 }, none)))

/-- R144: `TICK.TX_ERR` abandons the attempt and keeps the staged frame, whatever the sampled inputs. -/
def Obligations.TxErrTickRule : Prop :=
  decodeTick 13#4 = some .tickTxErr ∧
  ∀ (s : State) (ch : Channel), s.self = some ch →
    exec .tickTxErr s = .next (s.afterTick ch
      ({ ch with txCursor := 0, txInProgress := false, txOut := false, txEn := false, state := 1#4, tis := 0 }, none))

/-- R145: `TICK.TX_DONE` empties the TX buffer and returns to `READY`, whatever the sampled inputs; a held `PUT` commit is
then enabled. -/
def Obligations.TxDoneTickRule : Prop :=
  decodeTick 14#4 = some .tickTxDone ∧
  ∀ (s : State) (ch ch' : Channel), s.self = some ch →
    ch' = { ch with txLen := 0#8, txCursor := 0, txReady := false, txInProgress := false,
                    txOut := false, txEn := false, state := 1#4, tis := 0 } →
    exec .tickTxDone s = .next (s.afterTick ch (ch', none)) ∧ ch'.commitEnabled = ch.putPending

/-! ### Inputs and tick sources -/

/-- A channel samples the output registers of the channel its wires lead to (R56, R101); while that channel has not
configured its pins, both levels are free draws (R63). -/
def Obligations.SampledLevelsArePeerOutputs : Prop :=
  ∀ (s : State) (ch p : Channel), ch.inject = Injection.none → s.chans[ch.cfg.peer]? = some p →
    (p.driven = true → s.sampled ch = { rx := p.txOut, en := p.txEn }) ∧
    (p.driven = false →
      s.sampled ch = { rx := Config.undrivenLevel s.draws, en := Config.undrivenLevel (s.draws + 1) })

/-- R64: a flip inverts the level a channel samples on one input at its next tick step only. -/
def Obligations.FlipInvertsOneSample : Prop :=
  ∀ (s : State) (c : Nat) (ch : Channel), s.chans[c]? = some ch → ch.inject = Injection.none →
    (∃ t ch', deliver s (.flip c .rx) = .next t ∧ t.chans[c]? = some ch' ∧
      (t.sampled ch').rx = !(s.sampled ch).rx ∧ (t.sampled ch').en = (s.sampled ch).en) ∧
    (∃ t ch', deliver s (.flip c .en) = .next t ∧ t.chans[c]? = some ch' ∧
      (t.sampled ch').rx = (s.sampled ch).rx ∧ (t.sampled ch').en = !(s.sampled ch).en) ∧
    (∀ (u t : State) (chu cht : Channel), u.chans[c]? = some chu → deliver u (.tick c) = .next t →
      t.chans[c]? = some cht → cht.inject = Injection.none)

/-- A period makes a tick event due for each channel registered with the source, in registration order, and the source
delivers its due events first to last, each as a tick event of its channel (R214, R216). -/
def Obligations.DueTicksFollowRegistrationOrder : Prop :=
  ∀ (s : State) (k : Nat), k < s.nTimers →
    deliver s (.strobe k) =
      .next { s with due := s.due ++ s.registry.filter (fun r => r.timer == k), out := StepOut.none } ∧
    ∀ (before after : List Registration) (r : Registration), s.due = before ++ r :: after → r.timer = k →
      (∀ x ∈ before, x.timer ≠ k) →
      deliver s (.deliver k) = deliver { s with due := before ++ after } (.tick r.chan)

/-! ### Frames -/

/-- Which instruction may change which field of its channel (R20's "written by" column, R23 to R34): every field not
named for an instruction is unchanged. -/
def Obligations.FieldsChangeOnlyByTheirWriters : Prop :=
  ∀ (i : Instr) (s t : State) (ch ch' : Channel), s.self = some ch → exec i s = .next t → t.self = some ch' →
    ch'.cfg = ch.cfg ∧
    (ch'.initialized ≠ ch.initialized → i = .hostBegin) ∧
    (ch'.driven ≠ ch.driven → i = .hostBegin) ∧
    (ch'.state ≠ ch.state → i = .hostBegin ∨ i ∈ [.tickReady, .tickRxStart, .tickRxChar, .tickRxAck, .tickRxChecksum,
      .tickRxAbort, .tickRxErr, .tickRxDone, .tickTxStart, .tickTxChar, .tickTxEnd, .tickTxAck, .tickTxErr, .tickTxDone]) ∧
    (ch'.txReady ≠ ch.txReady → isPut i = true ∨ i ∈ [.hostBegin, .tickTxDone]) ∧
    (ch'.txInProgress ≠ ch.txInProgress → i ∈ [.hostBegin, .tickReady, .tickTxStart, .tickTxChar, .tickTxErr,
      .tickTxDone, .tickRxAbort, .tickRxErr]) ∧
    (ch'.rxLen ≠ ch.rxLen → i ∈ [.hostBegin, .hostGet, .tickReady, .tickRxChar, .tickRxChecksum, .tickRxAbort,
      .tickRxErr]) ∧
    (ch'.rxShift ≠ ch.rxShift → i ∈ [.hostBegin, .tickReady, .tickRxChar, .tickRxAbort, .tickRxErr]) ∧
    (ch'.txLen ≠ ch.txLen → i ∈ [.hostBegin, .tickTxDone]) ∧
    (ch'.txCursor ≠ ch.txCursor → i ∈ [.hostBegin, .tickReady, .tickTxStart, .tickTxChar, .tickTxErr, .tickTxDone]) ∧
    ((ch'.txOut ≠ ch.txOut ∨ ch'.txEn ≠ ch.txEn ∨ ch'.tis ≠ ch.tis) →
      i ∉ [.hostRdy, .hostGet, .hostStatus, .tickNotinit] ∧ isPut i = false) ∧
    (ch'.putPending ≠ ch.putPending ∨ ch'.waiters ≠ ch.waiters → isPut i = true) ∧
    (ch'.inject ≠ ch.inject → i ∉ [.hostBegin, .hostRdy, .hostGet, .hostStatus] ∧ isPut i = false)

/-- Every byte of both buffers that an instruction does not store to reads as before; no instruction's own step stores to
`tx_buf` (R26, R29, R105, R121, R123). -/
def Obligations.UnstoredBytesReadAsBefore : Prop :=
  ∀ (i : Instr) (s t : State) (ch ch' : Channel), s.self = some ch → exec i s = .next t → t.self = some ch' →
    (∀ a, a ∉ storedRx i (s.sampled ch) ch → ch'.rxBuf.read a = ch.rxBuf.read a) ∧
    ∀ a, ch'.txBuf.read a = ch.txBuf.read a

/-- R217: a step changes only the channel it runs on, and no step changes a configuration. -/
def Obligations.StepsTouchOnlyTheirOwnChannel : Prop :=
  ∀ (s t : State) (e : Event), deliver s e = .next t →
    t.nTimers = s.nTimers ∧ t.chans.map (·.cfg) = s.chans.map (·.cfg) ∧
    ∀ c, c ≠ t.active → t.chans[c]? = s.chans[c]?

/-- An instruction leaves the interleaving to come, the tick sources and the due tick events alone; only `BEGIN` changes
the registry, only a tick step draws a level (R63, R181, R215). -/
def Obligations.InstructionsKeepTheSystem : Prop :=
  ∀ (i : Instr) (s t : State), exec i s = .next t →
    t.queue = s.queue ∧ t.nTimers = s.nTimers ∧ t.due = s.due ∧ t.active = s.active ∧
    (t.registry ≠ s.registry → i = .hostBegin) ∧
    (t.draws ≠ s.draws → i ∉ [.hostBegin, .hostRdy, .hostGet, .hostStatus] ∧ isPut i = false)

/-- R217, R56: what a step does to its channel depends on no other channel but through the output registers of the
channel its wires lead to. -/
def Obligations.ChannelsInteractOnlyThroughWires : Prop :=
  ∀ (i : Instr) (s s' t : State) (ch : Channel), s.self = some ch → s'.self = some ch → s'.active = s.active →
    s'.draws = s.draws →
    (s'.chans[ch.cfg.peer]?).map (fun p => (p.driven, p.txOut, p.txEn)) =
      (s.chans[ch.cfg.peer]?).map (fun p => (p.driven, p.txOut, p.txEn)) →
    exec i s = .next t → ∃ t', exec i s' = .next t' ∧ t'.self = t.self ∧ t'.out = t.out ∧ t'.draws = t.draws

/-- `tx_buf` is written only by the commit phase of `PUT`, while no transmission is in progress and a payload is pending
(R29, R45). -/
def Obligations.OnlyCommitWritesTxBuffer : Prop :=
  ∀ (s t : State) (e : Event) (c : Nat) (ch ch' : Channel), deliver s e = .next t → s.chans[c]? = some ch →
    t.chans[c]? = some ch' → ch'.txBuf ≠ ch.txBuf →
    e = .commit c ∧ ch.txInProgress = false ∧ ch.putPending ≠ none

/-- Only the first `BEGIN` leaves `NOTINIT`, to `READY`, and nothing returns to it; `initialized` never falls (R21, R23,
R234). -/
def Obligations.OnlyFirstBeginLeavesNotinit : Prop :=
  ∀ (s t : State) (e : Event) (c : Nat) (ch ch' : Channel), deliver s e = .next t → s.chans[c]? = some ch →
    t.chans[c]? = some ch' →
    (ch.initialized = true → ch'.initialized = true) ∧
    (ch.state ≠ 0#4 → ch'.state ≠ 0#4) ∧
    (ch.state = 0#4 → ch'.state ≠ 0#4 → e = .host c [0x01#8] ∧ ch.initialized = false ∧ ch'.state = 1#4)

/-- A verified message waits for `GET` (R45, R126, R185): in `RX_DONE` of a begun channel no event writes a byte of
`rx_buf`, only `GET` changes `rx_len`, to 0, and the state changes only to `READY`, with `rx_len = 0`. -/
def Obligations.WaitingMessageIsKeptUntilGet : Prop :=
  ∀ (s t : State) (e : Event) (c : Nat) (ch ch' : Channel), deliver s e = .next t → s.chans[c]? = some ch →
    t.chans[c]? = some ch' → ch.state = 8#4 → ch.initialized = true →
    (∀ a, ch'.rxBuf.read a = ch.rxBuf.read a) ∧
    (ch'.rxLen ≠ ch.rxLen → e = .host c [0x04#8] ∧ ch'.rxLen = 0#8) ∧
    (ch'.state ≠ 8#4 → ch.rxLen = 0#8 ∧ ch'.state = 1#4)

/-! ### Invariants -/

/-- Power-on (R230): the values the spec gives, and every invariant below holds. -/
def Obligations.ResetSatisfiesInvariants : Prop :=
  (∀ ch ∈ State.reset.chans, ch.state = 0#4 ∧ ch.tis = 0 ∧ ch.initialized = false ∧ ch.txReady = false ∧
    ch.txInProgress = false ∧ ch.rxLen = 0#8 ∧ ch.rxShift = 0#8 ∧ ch.txLen = 0#8 ∧ ch.txCursor = 0 ∧
    ch.txOut = false ∧ ch.txEn = false ∧ ch.driven = false ∧ ch.putPending = none ∧ ch.statusWord = 0x0000#16) ∧
  State.reset.registry = [] ∧
  State.reset.AllChannels Channel.ControlOk ∧ State.reset.AllChannels Channel.CursorsOk ∧
  State.reset.AllChannels Channel.BuffersOk ∧ State.reset.AllChannels Channel.FramingOk ∧
  State.reset.RegistryOk ∧ State.reset.ConfigOk

/-- Every step keeps the control invariant: R38, R39, R40 and the pins' direction (R63). -/
def Obligations.StepKeepsControlInvariant : Prop :=
  ∀ s t : State, s.AllChannels Channel.ControlOk → step s = .next t → t.AllChannels Channel.ControlOk

/-- Every step keeps the cursor invariant: R41, R43, the ranges of `tis`, and what a pending or waiting payload is (R34). -/
def Obligations.StepKeepsCursorInvariant : Prop :=
  ∀ s t : State, s.AllChannels Channel.ControlOk → s.AllChannels Channel.CursorsOk → step s = .next t →
    t.AllChannels Channel.CursorsOk

/-- Every step keeps both buffers of every channel in canonical form and below `CAP` (R43, R52). -/
def Obligations.StepKeepsBuffersCanonical : Prop :=
  ∀ s t : State, s.AllChannels Channel.BuffersOk → step s = .next t → t.AllChannels Channel.BuffersOk

/-- Every step keeps what the buffers hold: the terminator after the received bytes, and a valid staged frame (R44, R161,
R168). -/
def Obligations.StepKeepsFramingInvariant : Prop :=
  ∀ s t : State, s.AllChannels Channel.ControlOk → s.AllChannels Channel.CursorsOk →
    s.AllChannels Channel.BuffersOk → s.AllChannels Channel.FramingOk → step s = .next t →
    t.AllChannels Channel.FramingOk

/-- Every step keeps the registry: each begun channel exactly once, with its own tick source (R215). -/
def Obligations.StepKeepsRegistryInvariant : Prop :=
  ∀ s t : State, s.RegistryOk → step s = .next t → t.RegistryOk

/-- In a state that meets the invariants no step faults: no state code 15, no index out of range (R52, R77, R104). -/
def Obligations.InvariantStatesNeverFault : Prop :=
  ∀ (s : State) (f : Fault), s.AllChannels Channel.ControlOk → s.AllChannels Channel.CursorsOk → step s ≠ .fault f

/-- R38 to R43 hold in every state reachable from reset, whatever events the outside world presents. -/
def Obligations.ReachableStatesObeyStatedInvariants : Prop :=
  ∀ (es : List Event) (t : State), deliverAll es State.reset = .next t → ∀ ch ∈ t.chans,
    (ch.state = 0#4 ↔ ch.initialized = false) ∧
    (ch.txInProgress = true ↔ ch.state ∈ [9#4, 10#4, 11#4, 12#4, 13#4, 14#4]) ∧
    (ch.txEn = true ↔ ch.state ∈ [9#4, 10#4, 11#4]) ∧
    (ch.state ∈ [0#4, 1#4, 5#4, 6#4, 7#4, 8#4, 13#4, 14#4] → ch.txOut = false) ∧
    (ch.state = 1#4 → ch.rxLen = 0#8 ∧ ch.txCursor = 0) ∧
    ch.state ≠ 15#4 ∧
    ch.rxLen.toNat ≤ ch.cfg.cap.bytes - 1 ∧ ch.txLen.toNat ≤ ch.cfg.cap.bytes - 1 ∧
    ch.txCursor ≤ 8 * ch.txLen.toNat

/-! ### Whole-machine rules -/

/-- A channel that samples `en = 1` in any sending state is back in `READY` within two of its tick steps, with `tx_ready`
and the staged frame kept (R106, R110, R141, R143, R144). Stated for the two steps: the first samples `en = 1`. -/
def Obligations.CollisionReturnsToReadyKeepingFrame : Prop :=
  ∀ (s : State) (c : Nat) (ch : Channel), s.chans[c]? = some ch → ch.state ∈ [9#4, 10#4, 12#4] →
    (s.sampled ch).en = true →
    ∃ t ch', deliver s (.tick c) = .next t ∧ t.chans[c]? = some ch' ∧ ch'.txReady = ch.txReady ∧
      ch'.txBuf = ch.txBuf ∧ ch'.txLen = ch.txLen ∧ ch'.txOut = false ∧ ch'.txEn = false ∧
      (ch.state ≠ 12#4 → ch'.state = 1#4 ∧ ch'.txInProgress = false ∧ ch'.txCursor = 0) ∧
      (ch.state = 12#4 → ∃ u ch'', deliver t (.tick c) = .next u ∧ u.chans[c]? = some ch'' ∧ ch''.state = 1#4 ∧
        ch''.txInProgress = false ∧ ch''.txCursor = 0 ∧ ch''.txReady = ch.txReady ∧ ch''.txBuf = ch.txBuf ∧
        ch''.txLen = ch.txLen)

/-- R190: a transmission in progress ends within `8L + 10` tick steps of its channel, whatever the peer and every host
caller do meanwhile, so a held `PUT` commit becomes enabled. -/
def Obligations.TransmissionEndsWithinBound : Prop :=
  ∀ (es : List Event) (s t : State) (c : Nat) (ch : Channel), s.chans[c]? = some ch → ch.ControlOk → ch.CursorsOk →
    ch.txInProgress = true → 8 * ch.txLen.toNat + 10 ≤ es.count (.tick c) → deliverAll es s = .next t →
    ∃ (k : Nat) (u : State) (chu : Channel), k ≤ es.length ∧ deliverAll (es.take k) s = .next u ∧
      u.chans[c]? = some chu ∧ chu.txInProgress = false

/-- R167: an odd number of flipped bits in a valid frame is always rejected at `RX_CHECKSUM`, with `E_CHECKSUM`. -/
def Obligations.OddBitFlipsAreRejected : Prop :=
  ∀ (s : State) (ch : Channel) (f m : List Byte), s.self = some ch → f.length = m.length → xorFold f = 0x00#8 →
    flips m % 2 = 1 → 2 ≤ ch.rxLen.toNat → ch.rxLen.toNat ≤ ch.cfg.cap.bytes →
    ch.rxBuf.readRange ch.rxLen.toNat = List.zipWith (· ^^^ ·) f m →
    ∃ t ch' a b, exec .tickRxChecksum s = .next t ∧ t.self = some ch' ∧ ch'.state = 7#4 ∧
      t.out.label = some (.checksum a b)

/-- R160, R161: a frame is valid exactly when its XOR fold is 0, which is when the fold of all but its last byte is its
last byte; the frame of a payload is valid; and each bit of the checksum is the parity of that bit over the payload. -/
def Obligations.FrameValidityIsZeroFold : Prop :=
  (∀ (f : List Byte) (b : Byte), xorFold (f ++ [b]) = 0x00#8 ↔ xorFold f = b) ∧
  (∀ d : List Byte, xorFold (frame d) = 0x00#8) ∧
  ∀ (d : List Byte) (j : Nat), (xorFold d).getLsbD j = decide ((d.map fun b => (b.getLsbD j).toNat).sum % 2 = 1)

/-- R235: under simultaneous sampling a one-sided send never delivers: after every four periods the sender is again in
`READY` with its message staged, and the receiver in `READY` with nothing received. -/
def Obligations.LockstepSamplingDeliversNothing : Prop :=
  ∀ (n : Nat) (s : State) (a b : Nat) (cha chb : Channel), IdleLink s a b cha chb → cha.txReady = true →
    chb.txReady = false →
    ∃ t cha' chb', deliverAll ((List.replicate (4 * n) (lockstep a b)).flatten) s = .next t ∧
      IdleLink t a b cha' chb' ∧ cha'.txReady = true ∧ chb'.txReady = false ∧ cha'.txBuf = cha.txBuf ∧
      cha'.txLen = cha.txLen ∧ chb'.messageReady = false

/-- R205: when both ends have a message staged and tick in turn, the first to tick sends and the other receives; its own
message stays staged. -/
def Obligations.SecondToTickReceives : Prop :=
  ∀ (s : State) (a b : Nat) (cha chb : Channel), IdleLink s a b cha chb → cha.txReady = true →
    ∃ t cha' chb', deliverAll (period a b) s = .next t ∧ t.chans[a]? = some cha' ∧ t.chans[b]? = some chb' ∧
      cha'.state = 9#4 ∧ chb'.state = 2#4 ∧ chb'.txReady = chb.txReady ∧ chb'.txBuf = chb.txBuf ∧
      chb'.txLen = chb.txLen

/-- R169: the round trip. A staged frame of a payload of 1 to `CAP - 2` bytes without terminator is delivered under the
fault-free schedule: after `8L + 11` periods the sender is back in `READY` with an empty TX buffer, the receiver holds the
payload in `RX_DONE`, and one `GET` returns it exactly. -/
def Obligations.RoundTripDeliversPayload : Prop :=
  ∀ (s : State) (a b : Nat) (cha chb : Channel) (d : List Byte), IdleLink s a b cha chb →
    1 ≤ d.length → d.length + 2 ≤ cha.cfg.cap.bytes → d.length + 2 ≤ chb.cfg.cap.bytes → 0x00#8 ∉ d →
    cha.txReady = true → cha.txLen.toNat = d.length + 1 → cha.txBuf.readRange (d.length + 1) = frame d →
    chb.txReady = false → chb.rxBuf.wf →
    ∃ t cha' chb', deliverAll ((List.replicate (8 * (d.length + 1) + 11) (period a b)).flatten) s = .next t ∧
      t.chans[a]? = some cha' ∧ t.chans[b]? = some chb' ∧
      cha'.state = 1#4 ∧ cha'.txReady = false ∧ cha'.txInProgress = false ∧ cha'.txLen = 0#8 ∧
      chb'.state = 8#4 ∧ chb'.rxLen.toNat = d.length ∧ chb'.rxBuf.readRange d.length = d ∧
      ∃ u, deliver t (.host b [0x04#8]) = .next u ∧ u.out.resp = some (.message d)
end

