-- ==== Sys2Proof/Laws/Constants.lean ====
section
/-! SUPPORT. The values of the constants, tagged for simp, so that proofs meet numerals only. -/

namespace Sys2Proof

@[simp] theorem Code.notinit_eq : Code.notinit = 0#4 := rfl
@[simp] theorem Code.ready_eq : Code.ready = 1#4 := rfl
@[simp] theorem Code.rxStart_eq : Code.rxStart = 2#4 := rfl
@[simp] theorem Code.rxChar_eq : Code.rxChar = 3#4 := rfl
@[simp] theorem Code.rxAck_eq : Code.rxAck = 4#4 := rfl
@[simp] theorem Code.rxChecksum_eq : Code.rxChecksum = 5#4 := rfl
@[simp] theorem Code.rxAbort_eq : Code.rxAbort = 6#4 := rfl
@[simp] theorem Code.rxErr_eq : Code.rxErr = 7#4 := rfl
@[simp] theorem Code.rxDone_eq : Code.rxDone = 8#4 := rfl
@[simp] theorem Code.txStart_eq : Code.txStart = 9#4 := rfl
@[simp] theorem Code.txChar_eq : Code.txChar = 10#4 := rfl
@[simp] theorem Code.txEnd_eq : Code.txEnd = 11#4 := rfl
@[simp] theorem Code.txAck_eq : Code.txAck = 12#4 := rfl
@[simp] theorem Code.txErr_eq : Code.txErr = 13#4 := rfl
@[simp] theorem Code.txDone_eq : Code.txDone = 14#4 := rfl
@[simp] theorem Code.unused_eq : Code.unused = 15#4 := rfl

@[simp] theorem Config.idle_eq : Config.idle = false := rfl
@[simp] theorem Config.listen_eq : Config.listen = true := rfl
@[simp] theorem Config.term_eq : Config.term = 0#8 := rfl

namespace Machine

@[simp] theorem Memory.unlisted_eq : Memory.unlisted = 0#8 := rfl

@[simp] theorem preambleSymbol_0 : preambleSymbol 0 = true := rfl
@[simp] theorem preambleSymbol_1 : preambleSymbol 1 = false := rfl
@[simp] theorem preambleSymbol_2 : preambleSymbol 2 = true := rfl
@[simp] theorem preambleSymbol_3 : preambleSymbol 3 = false := rfl
@[simp] theorem preambleSymbol_4 : preambleSymbol 4 = true := rfl
@[simp] theorem postambleSymbol_0 : postambleSymbol 0 = true := rfl
@[simp] theorem postambleSymbol_1 : postambleSymbol 1 = false := rfl
@[simp] theorem postambleSymbol_2 : postambleSymbol 2 = true := rfl
@[simp] theorem postambleSymbol_3 : postambleSymbol 3 = false := rfl

end Machine

end Sys2Proof
end

