-- ==== Sys2Proof/Laws/Memory.lean ====
section
/-! SUPPORT. Buffer laws: writes keep the canonical form, a read after a write, and the addresses a write lists. -/

namespace Sys2Proof.Machine

theorem Memory.read_of_not_listed (m : Memory) (i : Nat) (h : ∀ x ∈ m, x.1 ≠ i) : m.read i = Memory.unlisted := by
  induction m with
  | nil => rfl
  | cons x m ih =>
    obtain ⟨a, v⟩ := x
    have ha : a ≠ i := h (a, v) (by simp)
    simp only [Memory.read, ha, if_false]
    exact ih fun y hy => h y (by simp [hy])

/-- The addresses a write leaves listed: the written one and those listed before. -/
theorem Memory.mem_write {m : Memory} {i : Nat} {v : Byte} {x : Host.Cell} (hx : x ∈ m.write i v) :
    x = (i, v) ∧ v ≠ Memory.unlisted ∨ x ∈ m := by
  induction m with
  | nil => simp only [Memory.write] at hx; split at hx <;> simp_all
  | cons y m ih =>
    obtain ⟨a, w⟩ := y
    simp only [Memory.write] at hx
    split at hx
    · split at hx
      · exact .inr hx
      · rcases List.mem_cons.1 hx with rfl | hx
        · exact .inl ⟨rfl, ‹_›⟩
        · exact .inr hx
    · split at hx
      · split at hx
        · exact .inr (List.mem_cons_of_mem _ hx)
        · rcases List.mem_cons.1 hx with rfl | hx
          · exact .inl ⟨rfl, ‹_›⟩
          · exact .inr (List.mem_cons_of_mem _ hx)
      · rcases List.mem_cons.1 hx with rfl | hx
        · exact .inr (by simp)
        · exact (ih hx).imp_right (List.mem_cons_of_mem _)

theorem Memory.write_nil_wf (i : Nat) (v : Byte) : (Memory.write [] i v).wf := by
  simp only [Memory.write]
  split <;> simp_all [Memory.wf]

/-- A write keeps the canonical form. -/
theorem Memory.write_wf {m : Memory} (h : m.wf) (i : Nat) (v : Byte) : (m.write i v).wf := by
  induction m with
  | nil => exact Memory.write_nil_wf i v
  | cons y m ih =>
    obtain ⟨a, w⟩ := y
    obtain ⟨hp, hn⟩ := h
    rw [List.pairwise_cons] at hp
    have hm : Memory.wf m := ⟨hp.2, fun x hx => hn x (by simp [hx])⟩
    simp only [Memory.write]
    split
    · split
      · exact ⟨List.pairwise_cons.2 hp, hn⟩
      · refine ⟨List.pairwise_cons.2 ⟨?_, List.pairwise_cons.2 hp⟩, ?_⟩
        · intro x hx
          rcases List.mem_cons.1 hx with rfl | hx
          · assumption
          · have := hp.1 x hx; simp only at *; omega
        · intro x hx
          rcases List.mem_cons.1 hx with rfl | hx
          · assumption
          · exact hn x hx
    · split
      · subst i
        split
        · exact hm
        · refine ⟨List.pairwise_cons.2 hp, ?_⟩
          intro x hx
          rcases List.mem_cons.1 hx with rfl | hx
          · assumption
          · exact hn x (by simp [hx])
      · have hw := ih hm
        refine ⟨List.pairwise_cons.2 ⟨?_, hw.1⟩, ?_⟩
        · intro x hx
          rcases Memory.mem_write hx with ⟨rfl, _⟩ | hx
          · simp only at *; omega
          · exact hp.1 x hx
        · intro x hx
          rcases List.mem_cons.1 hx with rfl | hx
          · exact hn _ (by simp)
          · exact hw.2 x hx

/-- A write leaves every other byte alone. -/
theorem Memory.read_write_of_ne (m : Memory) {i j : Nat} (v : Byte) (hij : i ≠ j) :
    (m.write i v).read j = m.read j := by
  induction m with
  | nil => simp only [Memory.write]; split <;> simp [Memory.read, hij]
  | cons y m ih =>
    obtain ⟨a, w⟩ := y
    simp only [Memory.write]
    split
    · split <;> simp [Memory.read, hij]
    · split
      · subst i
        split <;> simp [Memory.read, hij]
      · simp only [Memory.read, ih]

/-- A read after a write to the same byte gives the byte written. -/
theorem Memory.read_write_same {m : Memory} (h : m.wf) (i : Nat) (v : Byte) : (m.write i v).read i = v := by
  induction m with
  | nil => simp only [Memory.write]; split <;> simp_all [Memory.read]
  | cons y m ih =>
    obtain ⟨a, w⟩ := y
    obtain ⟨hp, hn⟩ := h
    rw [List.pairwise_cons] at hp
    simp only [Memory.write]
    split
    · split
      · rename_i hv
        rw [hv]
        refine Memory.read_of_not_listed _ _ fun x hx => ?_
        rcases List.mem_cons.1 hx with rfl | hx
        · simp only; omega
        · have := hp.1 x hx; simp only at this; omega
      · simp [Memory.read]
    · split
      · subst i
        split
        · rename_i hv
          rw [hv]
          refine Memory.read_of_not_listed _ _ fun x hx => ?_
          have := hp.1 x hx; simp only at this; omega
        · simp [Memory.read]
      · have hai : a ≠ i := fun e => by simp_all
        simp only [Memory.read, hai, if_false]
        exact ih ⟨hp.2, fun x hx => hn x (by simp [hx])⟩

/-- Both read laws at once. -/
theorem Memory.read_write {m : Memory} (h : m.wf) (i j : Nat) (v : Byte) :
    (m.write i v).read j = if j = i then v else m.read j := by
  split
  · subst j; exact Memory.read_write_same h i v
  · exact Memory.read_write_of_ne m v (Ne.symm ‹_›)

/-- A sequence of writes keeps the canonical form. -/
theorem Memory.writeList_wf {m : Memory} (h : m.wf) (i : Nat) (bs : List Byte) : (m.writeList i bs).wf := by
  induction bs generalizing m i with
  | nil => exact h
  | cons b bs ih => exact ih (Memory.write_wf h i b) (i + 1)

/-- What a sequence of writes leaves at each index. -/
theorem Memory.read_writeList {m : Memory} (h : m.wf) (i : Nat) (bs : List Byte) (j : Nat) :
    (m.writeList i bs).read j = if i ≤ j ∧ j < i + bs.length then bs.getD (j - i) 0#8 else m.read j := by
  induction bs generalizing m i with
  | nil =>
    have : ¬ (i ≤ j ∧ j < i + ([] : List Byte).length) := by simp only [List.length_nil]; omega
    rw [if_neg this]; rfl
  | cons b bs ih =>
    simp only [Memory.writeList, ih (Memory.write_wf h i b), Memory.read_write h, List.length_cons]
    by_cases hj : j = i
    · subst hj; simp
    · by_cases hr : i + 1 ≤ j ∧ j < i + 1 + bs.length
      · rw [if_pos hr, if_pos (by omega)]
        obtain ⟨k, rfl⟩ : ∃ k, j = i + 1 + k := ⟨j - (i + 1), by omega⟩
        rw [show i + 1 + k - i = k + 1 by omega, show i + 1 + k - (i + 1) = k by omega]
        rfl
      · rw [if_neg hr, if_neg hj, if_neg (by omega)]

/-- The addresses a sequence of writes lists. -/
theorem Memory.mem_writeList {m : Memory} {i : Nat} {bs : List Byte} {x : Host.Cell} (hx : x ∈ m.writeList i bs) :
    i ≤ x.1 ∧ x.1 < i + bs.length ∨ x ∈ m := by
  induction bs generalizing m i with
  | nil => exact .inr hx
  | cons b bs ih =>
    rcases ih hx with ⟨h1, h2⟩ | hx
    · exact .inl ⟨by omega, by simp only [List.length_cons]; omega⟩
    · rcases Memory.mem_write hx with ⟨rfl, _⟩ | hx
      · exact .inl ⟨le_refl _, by simp⟩
      · exact .inr hx

/-- Reset's buffers are in canonical form. -/
theorem reset_buffers_wf : ∀ ch ∈ State.reset.chans, ch.rxBuf.wf ∧ ch.txBuf.wf := by decide

theorem Memory.readRange_congr {m m' : Memory} {n : Nat} (h : ∀ i, i < n → m.read i = m'.read i) :
    m.readRange n = m'.readRange n := by
  unfold Memory.readRange
  exact List.map_congr_left fun i hi => h i (List.mem_range.1 hi)

@[simp] theorem Memory.readRange_length (m : Memory) (n : Nat) : (m.readRange n).length = n := by
  simp [Memory.readRange]

theorem Memory.readRange_succ (m : Memory) (n : Nat) : m.readRange (n + 1) = m.readRange n ++ [m.read n] := by
  simp [Memory.readRange, List.range_succ]

theorem Memory.readRange_getElem (m : Memory) (n i : Nat) (h : i < (m.readRange n).length) :
    (m.readRange n)[i] = m.read i := by
  simp [Memory.readRange]

end Sys2Proof.Machine
end

