-- ==== Sys2Proof/Laws/Framing.lean ====
section
/-! SUPPORT. Laws of the XOR fold and of frames (43_framing.md). -/

namespace Sys2Proof.Machine

@[simp] theorem xorFold_nil : xorFold [] = 0#8 := rfl

@[simp] theorem xorFold_cons (b : Byte) (bs : List Byte) : xorFold (b :: bs) = b ^^^ xorFold bs := rfl

theorem xorFold_append (a b : List Byte) : xorFold (a ++ b) = xorFold a ^^^ xorFold b := by
  induction a with
  | nil => simp
  | cons x a ih => simp [ih, BitVec.xor_assoc]

@[simp] theorem frame_length (d : List Byte) : (frame d).length = d.length + 1 := by simp [frame]

/-- Reading back a written frame gives the frame. -/
theorem readRange_frame {m : Memory} (h : m.wf) (d : List Byte) :
    (m.writeList 0 (frame d)).readRange (d.length + 1) = frame d := by
  apply List.ext_getElem
  · simp
  · intro i h1 h2
    rw [Memory.readRange_getElem, Memory.read_writeList h]
    have : i < (frame d).length := h2
    simp only [frame_length] at this
    rw [if_pos (by simp only [frame_length]; omega)]
    simp [List.getD_eq_getElem?_getD, List.getElem?_eq_getElem h2]

end Sys2Proof.Machine
end

