-- ==== Sys2Proof/Laws/State.lean ====
section
/-! SUPPORT. One lemma per field per update, each true by rfl, so that no proof unfolds a record update. -/

namespace Sys2Proof.Machine

variable (ch : Channel) (s : State)

/-! ### `Channel.drive` -/

@[simp] theorem Channel.drive_cfg (d e : Level) : (ch.drive d e).cfg = ch.cfg := rfl
@[simp] theorem Channel.drive_state (d e : Level) : (ch.drive d e).state = ch.state := rfl
@[simp] theorem Channel.drive_tis (d e : Level) : (ch.drive d e).tis = ch.tis := rfl
@[simp] theorem Channel.drive_initialized (d e : Level) : (ch.drive d e).initialized = ch.initialized := rfl
@[simp] theorem Channel.drive_txReady (d e : Level) : (ch.drive d e).txReady = ch.txReady := rfl
@[simp] theorem Channel.drive_txInProgress (d e : Level) : (ch.drive d e).txInProgress = ch.txInProgress := rfl
@[simp] theorem Channel.drive_rxBuf (d e : Level) : (ch.drive d e).rxBuf = ch.rxBuf := rfl
@[simp] theorem Channel.drive_rxLen (d e : Level) : (ch.drive d e).rxLen = ch.rxLen := rfl
@[simp] theorem Channel.drive_rxShift (d e : Level) : (ch.drive d e).rxShift = ch.rxShift := rfl
@[simp] theorem Channel.drive_txBuf (d e : Level) : (ch.drive d e).txBuf = ch.txBuf := rfl
@[simp] theorem Channel.drive_txLen (d e : Level) : (ch.drive d e).txLen = ch.txLen := rfl
@[simp] theorem Channel.drive_txCursor (d e : Level) : (ch.drive d e).txCursor = ch.txCursor := rfl
@[simp] theorem Channel.drive_txOut (d e : Level) : (ch.drive d e).txOut = d := rfl
@[simp] theorem Channel.drive_txEn (d e : Level) : (ch.drive d e).txEn = e := rfl
@[simp] theorem Channel.drive_driven (d e : Level) : (ch.drive d e).driven = ch.driven := rfl
@[simp] theorem Channel.drive_putPending (d e : Level) : (ch.drive d e).putPending = ch.putPending := rfl
@[simp] theorem Channel.drive_waiters (d e : Level) : (ch.drive d e).waiters = ch.waiters := rfl
@[simp] theorem Channel.drive_inject (d e : Level) : (ch.drive d e).inject = ch.inject := rfl

/-! ### `Channel.goto` -/

@[simp] theorem Channel.goto_cfg (q : StateCode) : (ch.goto q).cfg = ch.cfg := rfl
@[simp] theorem Channel.goto_state (q : StateCode) : (ch.goto q).state = q := rfl
@[simp] theorem Channel.goto_tis (q : StateCode) : (ch.goto q).tis = 0 := rfl
@[simp] theorem Channel.goto_initialized (q : StateCode) : (ch.goto q).initialized = ch.initialized := rfl
@[simp] theorem Channel.goto_txReady (q : StateCode) : (ch.goto q).txReady = ch.txReady := rfl
@[simp] theorem Channel.goto_txInProgress (q : StateCode) : (ch.goto q).txInProgress = ch.txInProgress := rfl
@[simp] theorem Channel.goto_rxBuf (q : StateCode) : (ch.goto q).rxBuf = ch.rxBuf := rfl
@[simp] theorem Channel.goto_rxLen (q : StateCode) : (ch.goto q).rxLen = ch.rxLen := rfl
@[simp] theorem Channel.goto_rxShift (q : StateCode) : (ch.goto q).rxShift = ch.rxShift := rfl
@[simp] theorem Channel.goto_txBuf (q : StateCode) : (ch.goto q).txBuf = ch.txBuf := rfl
@[simp] theorem Channel.goto_txLen (q : StateCode) : (ch.goto q).txLen = ch.txLen := rfl
@[simp] theorem Channel.goto_txCursor (q : StateCode) : (ch.goto q).txCursor = ch.txCursor := rfl
@[simp] theorem Channel.goto_txOut (q : StateCode) : (ch.goto q).txOut = ch.txOut := rfl
@[simp] theorem Channel.goto_txEn (q : StateCode) : (ch.goto q).txEn = ch.txEn := rfl
@[simp] theorem Channel.goto_driven (q : StateCode) : (ch.goto q).driven = ch.driven := rfl
@[simp] theorem Channel.goto_putPending (q : StateCode) : (ch.goto q).putPending = ch.putPending := rfl
@[simp] theorem Channel.goto_waiters (q : StateCode) : (ch.goto q).waiters = ch.waiters := rfl
@[simp] theorem Channel.goto_inject (q : StateCode) : (ch.goto q).inject = ch.inject := rfl

/-! ### `Channel.stay` -/

@[simp] theorem Channel.stay_cfg : ch.stay.cfg = ch.cfg := rfl
@[simp] theorem Channel.stay_state : ch.stay.state = ch.state := rfl
@[simp] theorem Channel.stay_tis : ch.stay.tis = ch.tis + 1 := rfl
@[simp] theorem Channel.stay_initialized : ch.stay.initialized = ch.initialized := rfl
@[simp] theorem Channel.stay_txReady : ch.stay.txReady = ch.txReady := rfl
@[simp] theorem Channel.stay_txInProgress : ch.stay.txInProgress = ch.txInProgress := rfl
@[simp] theorem Channel.stay_rxBuf : ch.stay.rxBuf = ch.rxBuf := rfl
@[simp] theorem Channel.stay_rxLen : ch.stay.rxLen = ch.rxLen := rfl
@[simp] theorem Channel.stay_rxShift : ch.stay.rxShift = ch.rxShift := rfl
@[simp] theorem Channel.stay_txBuf : ch.stay.txBuf = ch.txBuf := rfl
@[simp] theorem Channel.stay_txLen : ch.stay.txLen = ch.txLen := rfl
@[simp] theorem Channel.stay_txCursor : ch.stay.txCursor = ch.txCursor := rfl
@[simp] theorem Channel.stay_txOut : ch.stay.txOut = ch.txOut := rfl
@[simp] theorem Channel.stay_txEn : ch.stay.txEn = ch.txEn := rfl
@[simp] theorem Channel.stay_driven : ch.stay.driven = ch.driven := rfl
@[simp] theorem Channel.stay_putPending : ch.stay.putPending = ch.putPending := rfl
@[simp] theorem Channel.stay_waiters : ch.stay.waiters = ch.waiters := rfl
@[simp] theorem Channel.stay_inject : ch.stay.inject = ch.inject := rfl

/-! ### `Channel.rxClear` -/

@[simp] theorem Channel.rxClear_cfg : ch.rxClear.cfg = ch.cfg := rfl
@[simp] theorem Channel.rxClear_state : ch.rxClear.state = ch.state := rfl
@[simp] theorem Channel.rxClear_tis : ch.rxClear.tis = ch.tis := rfl
@[simp] theorem Channel.rxClear_initialized : ch.rxClear.initialized = ch.initialized := rfl
@[simp] theorem Channel.rxClear_txReady : ch.rxClear.txReady = ch.txReady := rfl
@[simp] theorem Channel.rxClear_txInProgress : ch.rxClear.txInProgress = ch.txInProgress := rfl
@[simp] theorem Channel.rxClear_rxBuf : ch.rxClear.rxBuf = ch.rxBuf.write 0 0#8 := rfl
@[simp] theorem Channel.rxClear_rxLen : ch.rxClear.rxLen = 0#8 := rfl
@[simp] theorem Channel.rxClear_rxShift : ch.rxClear.rxShift = 0#8 := rfl
@[simp] theorem Channel.rxClear_txBuf : ch.rxClear.txBuf = ch.txBuf := rfl
@[simp] theorem Channel.rxClear_txLen : ch.rxClear.txLen = ch.txLen := rfl
@[simp] theorem Channel.rxClear_txCursor : ch.rxClear.txCursor = ch.txCursor := rfl
@[simp] theorem Channel.rxClear_txOut : ch.rxClear.txOut = ch.txOut := rfl
@[simp] theorem Channel.rxClear_txEn : ch.rxClear.txEn = ch.txEn := rfl
@[simp] theorem Channel.rxClear_driven : ch.rxClear.driven = ch.driven := rfl
@[simp] theorem Channel.rxClear_putPending : ch.rxClear.putPending = ch.putPending := rfl
@[simp] theorem Channel.rxClear_waiters : ch.rxClear.waiters = ch.waiters := rfl
@[simp] theorem Channel.rxClear_inject : ch.rxClear.inject = ch.inject := rfl

/-! ### `Channel.txAbort` -/

@[simp] theorem Channel.txAbort_cfg : ch.txAbort.cfg = ch.cfg := rfl
@[simp] theorem Channel.txAbort_state : ch.txAbort.state = ch.state := rfl
@[simp] theorem Channel.txAbort_tis : ch.txAbort.tis = ch.tis := rfl
@[simp] theorem Channel.txAbort_initialized : ch.txAbort.initialized = ch.initialized := rfl
@[simp] theorem Channel.txAbort_txReady : ch.txAbort.txReady = ch.txReady := rfl
@[simp] theorem Channel.txAbort_txInProgress : ch.txAbort.txInProgress = false := rfl
@[simp] theorem Channel.txAbort_rxBuf : ch.txAbort.rxBuf = ch.rxBuf := rfl
@[simp] theorem Channel.txAbort_rxLen : ch.txAbort.rxLen = ch.rxLen := rfl
@[simp] theorem Channel.txAbort_rxShift : ch.txAbort.rxShift = ch.rxShift := rfl
@[simp] theorem Channel.txAbort_txBuf : ch.txAbort.txBuf = ch.txBuf := rfl
@[simp] theorem Channel.txAbort_txLen : ch.txAbort.txLen = ch.txLen := rfl
@[simp] theorem Channel.txAbort_txCursor : ch.txAbort.txCursor = 0 := rfl
@[simp] theorem Channel.txAbort_txOut : ch.txAbort.txOut = ch.txOut := rfl
@[simp] theorem Channel.txAbort_txEn : ch.txAbort.txEn = ch.txEn := rfl
@[simp] theorem Channel.txAbort_driven : ch.txAbort.driven = ch.driven := rfl
@[simp] theorem Channel.txAbort_putPending : ch.txAbort.putPending = ch.putPending := rfl
@[simp] theorem Channel.txAbort_waiters : ch.txAbort.waiters = ch.waiters := rfl
@[simp] theorem Channel.txAbort_inject : ch.txAbort.inject = ch.inject := rfl

/-! ### `Channel.rxCleanUp` -/

@[simp] theorem Channel.rxCleanUp_cfg : ch.rxCleanUp.cfg = ch.cfg := rfl
@[simp] theorem Channel.rxCleanUp_state : ch.rxCleanUp.state = 1#4 := rfl
@[simp] theorem Channel.rxCleanUp_tis : ch.rxCleanUp.tis = 0 := rfl
@[simp] theorem Channel.rxCleanUp_initialized : ch.rxCleanUp.initialized = ch.initialized := rfl
@[simp] theorem Channel.rxCleanUp_txReady : ch.rxCleanUp.txReady = ch.txReady := rfl
@[simp] theorem Channel.rxCleanUp_txInProgress : ch.rxCleanUp.txInProgress = false := rfl
@[simp] theorem Channel.rxCleanUp_rxBuf : ch.rxCleanUp.rxBuf = ch.rxBuf.write 0 0#8 := rfl
@[simp] theorem Channel.rxCleanUp_rxLen : ch.rxCleanUp.rxLen = 0#8 := rfl
@[simp] theorem Channel.rxCleanUp_rxShift : ch.rxCleanUp.rxShift = 0#8 := rfl
@[simp] theorem Channel.rxCleanUp_txBuf : ch.rxCleanUp.txBuf = ch.txBuf := rfl
@[simp] theorem Channel.rxCleanUp_txLen : ch.rxCleanUp.txLen = ch.txLen := rfl
@[simp] theorem Channel.rxCleanUp_txCursor : ch.rxCleanUp.txCursor = ch.txCursor := rfl
@[simp] theorem Channel.rxCleanUp_txOut : ch.rxCleanUp.txOut = false := rfl
@[simp] theorem Channel.rxCleanUp_txEn : ch.rxCleanUp.txEn = false := rfl
@[simp] theorem Channel.rxCleanUp_driven : ch.rxCleanUp.driven = ch.driven := rfl
@[simp] theorem Channel.rxCleanUp_putPending : ch.rxCleanUp.putPending = ch.putPending := rfl
@[simp] theorem Channel.rxCleanUp_waiters : ch.rxCleanUp.waiters = ch.waiters := rfl
@[simp] theorem Channel.rxCleanUp_inject : ch.rxCleanUp.inject = ch.inject := rfl

/-! ### `Channel.txCleanUp` -/

@[simp] theorem Channel.txCleanUp_cfg : ch.txCleanUp.cfg = ch.cfg := rfl
@[simp] theorem Channel.txCleanUp_state : ch.txCleanUp.state = 1#4 := rfl
@[simp] theorem Channel.txCleanUp_tis : ch.txCleanUp.tis = 0 := rfl
@[simp] theorem Channel.txCleanUp_initialized : ch.txCleanUp.initialized = ch.initialized := rfl
@[simp] theorem Channel.txCleanUp_txReady : ch.txCleanUp.txReady = ch.txReady := rfl
@[simp] theorem Channel.txCleanUp_txInProgress : ch.txCleanUp.txInProgress = false := rfl
@[simp] theorem Channel.txCleanUp_rxBuf : ch.txCleanUp.rxBuf = ch.rxBuf := rfl
@[simp] theorem Channel.txCleanUp_rxLen : ch.txCleanUp.rxLen = ch.rxLen := rfl
@[simp] theorem Channel.txCleanUp_rxShift : ch.txCleanUp.rxShift = ch.rxShift := rfl
@[simp] theorem Channel.txCleanUp_txBuf : ch.txCleanUp.txBuf = ch.txBuf := rfl
@[simp] theorem Channel.txCleanUp_txLen : ch.txCleanUp.txLen = ch.txLen := rfl
@[simp] theorem Channel.txCleanUp_txCursor : ch.txCleanUp.txCursor = 0 := rfl
@[simp] theorem Channel.txCleanUp_txOut : ch.txCleanUp.txOut = false := rfl
@[simp] theorem Channel.txCleanUp_txEn : ch.txCleanUp.txEn = false := rfl
@[simp] theorem Channel.txCleanUp_driven : ch.txCleanUp.driven = ch.driven := rfl
@[simp] theorem Channel.txCleanUp_putPending : ch.txCleanUp.putPending = ch.putPending := rfl
@[simp] theorem Channel.txCleanUp_waiters : ch.txCleanUp.waiters = ch.waiters := rfl
@[simp] theorem Channel.txCleanUp_inject : ch.txCleanUp.inject = ch.inject := rfl

/-! ### `Channel.takeLock` -/

@[simp] theorem Channel.takeLock_cfg (d : List Byte) : (ch.takeLock d).cfg = ch.cfg := rfl
@[simp] theorem Channel.takeLock_state (d : List Byte) : (ch.takeLock d).state = ch.state := rfl
@[simp] theorem Channel.takeLock_tis (d : List Byte) : (ch.takeLock d).tis = ch.tis := rfl
@[simp] theorem Channel.takeLock_initialized (d : List Byte) : (ch.takeLock d).initialized = ch.initialized := rfl
@[simp] theorem Channel.takeLock_txReady (d : List Byte) : (ch.takeLock d).txReady = false := rfl
@[simp] theorem Channel.takeLock_txInProgress (d : List Byte) : (ch.takeLock d).txInProgress = ch.txInProgress := rfl
@[simp] theorem Channel.takeLock_rxBuf (d : List Byte) : (ch.takeLock d).rxBuf = ch.rxBuf := rfl
@[simp] theorem Channel.takeLock_rxLen (d : List Byte) : (ch.takeLock d).rxLen = ch.rxLen := rfl
@[simp] theorem Channel.takeLock_rxShift (d : List Byte) : (ch.takeLock d).rxShift = ch.rxShift := rfl
@[simp] theorem Channel.takeLock_txBuf (d : List Byte) : (ch.takeLock d).txBuf = ch.txBuf := rfl
@[simp] theorem Channel.takeLock_txLen (d : List Byte) : (ch.takeLock d).txLen = ch.txLen := rfl
@[simp] theorem Channel.takeLock_txCursor (d : List Byte) : (ch.takeLock d).txCursor = ch.txCursor := rfl
@[simp] theorem Channel.takeLock_txOut (d : List Byte) : (ch.takeLock d).txOut = ch.txOut := rfl
@[simp] theorem Channel.takeLock_txEn (d : List Byte) : (ch.takeLock d).txEn = ch.txEn := rfl
@[simp] theorem Channel.takeLock_driven (d : List Byte) : (ch.takeLock d).driven = ch.driven := rfl
@[simp] theorem Channel.takeLock_putPending (d : List Byte) : (ch.takeLock d).putPending = some d := rfl
@[simp] theorem Channel.takeLock_waiters (d : List Byte) : (ch.takeLock d).waiters = ch.waiters := rfl
@[simp] theorem Channel.takeLock_inject (d : List Byte) : (ch.takeLock d).inject = ch.inject := rfl

/-! ### `Channel.stage` -/

@[simp] theorem Channel.stage_cfg (d : List Byte) : (ch.stage d).cfg = ch.cfg := rfl
@[simp] theorem Channel.stage_state (d : List Byte) : (ch.stage d).state = ch.state := rfl
@[simp] theorem Channel.stage_tis (d : List Byte) : (ch.stage d).tis = ch.tis := rfl
@[simp] theorem Channel.stage_initialized (d : List Byte) : (ch.stage d).initialized = ch.initialized := rfl
@[simp] theorem Channel.stage_txReady (d : List Byte) : (ch.stage d).txReady = true := rfl
@[simp] theorem Channel.stage_txInProgress (d : List Byte) : (ch.stage d).txInProgress = ch.txInProgress := rfl
@[simp] theorem Channel.stage_rxBuf (d : List Byte) : (ch.stage d).rxBuf = ch.rxBuf := rfl
@[simp] theorem Channel.stage_rxLen (d : List Byte) : (ch.stage d).rxLen = ch.rxLen := rfl
@[simp] theorem Channel.stage_rxShift (d : List Byte) : (ch.stage d).rxShift = ch.rxShift := rfl
@[simp] theorem Channel.stage_txBuf (d : List Byte) : (ch.stage d).txBuf = ch.txBuf.writeList 0 (frame d) := rfl
@[simp] theorem Channel.stage_txLen (d : List Byte) : (ch.stage d).txLen = BitVec.ofNat 8 (d.length + 1) := rfl
@[simp] theorem Channel.stage_txCursor (d : List Byte) : (ch.stage d).txCursor = 0 := rfl
@[simp] theorem Channel.stage_txOut (d : List Byte) : (ch.stage d).txOut = ch.txOut := rfl
@[simp] theorem Channel.stage_txEn (d : List Byte) : (ch.stage d).txEn = ch.txEn := rfl
@[simp] theorem Channel.stage_driven (d : List Byte) : (ch.stage d).driven = ch.driven := rfl
@[simp] theorem Channel.stage_putPending (d : List Byte) : (ch.stage d).putPending = none := rfl
@[simp] theorem Channel.stage_waiters (d : List Byte) : (ch.stage d).waiters = ch.waiters := rfl
@[simp] theorem Channel.stage_inject (d : List Byte) : (ch.stage d).inject = ch.inject := rfl

/-! ### `Channel.storeByte` -/

@[simp] theorem Channel.storeByte_cfg (b : Byte) : (ch.storeByte b).cfg = ch.cfg := rfl
@[simp] theorem Channel.storeByte_state (b : Byte) : (ch.storeByte b).state = ch.state := rfl
@[simp] theorem Channel.storeByte_tis (b : Byte) : (ch.storeByte b).tis = ch.tis := rfl
@[simp] theorem Channel.storeByte_initialized (b : Byte) : (ch.storeByte b).initialized = ch.initialized := rfl
@[simp] theorem Channel.storeByte_txReady (b : Byte) : (ch.storeByte b).txReady = ch.txReady := rfl
@[simp] theorem Channel.storeByte_txInProgress (b : Byte) : (ch.storeByte b).txInProgress = ch.txInProgress := rfl
@[simp] theorem Channel.storeByte_rxBuf (b : Byte) : (ch.storeByte b).rxBuf = (ch.rxBuf.write ch.rxLen.toNat b).write (ch.rxLen.toNat + 1) 0#8 := rfl
@[simp] theorem Channel.storeByte_rxLen (b : Byte) : (ch.storeByte b).rxLen = ch.rxLen + 1#8 := rfl
@[simp] theorem Channel.storeByte_rxShift (b : Byte) : (ch.storeByte b).rxShift = 0#8 := rfl
@[simp] theorem Channel.storeByte_txBuf (b : Byte) : (ch.storeByte b).txBuf = ch.txBuf := rfl
@[simp] theorem Channel.storeByte_txLen (b : Byte) : (ch.storeByte b).txLen = ch.txLen := rfl
@[simp] theorem Channel.storeByte_txCursor (b : Byte) : (ch.storeByte b).txCursor = ch.txCursor := rfl
@[simp] theorem Channel.storeByte_txOut (b : Byte) : (ch.storeByte b).txOut = ch.txOut := rfl
@[simp] theorem Channel.storeByte_txEn (b : Byte) : (ch.storeByte b).txEn = ch.txEn := rfl
@[simp] theorem Channel.storeByte_driven (b : Byte) : (ch.storeByte b).driven = ch.driven := rfl
@[simp] theorem Channel.storeByte_putPending (b : Byte) : (ch.storeByte b).putPending = ch.putPending := rfl
@[simp] theorem Channel.storeByte_waiters (b : Byte) : (ch.storeByte b).waiters = ch.waiters := rfl
@[simp] theorem Channel.storeByte_inject (b : Byte) : (ch.storeByte b).inject = ch.inject := rfl

/-! ### `Channel.strip` -/

@[simp] theorem Channel.strip_cfg : ch.strip.cfg = ch.cfg := rfl
@[simp] theorem Channel.strip_state : ch.strip.state = ch.state := rfl
@[simp] theorem Channel.strip_tis : ch.strip.tis = ch.tis := rfl
@[simp] theorem Channel.strip_initialized : ch.strip.initialized = ch.initialized := rfl
@[simp] theorem Channel.strip_txReady : ch.strip.txReady = ch.txReady := rfl
@[simp] theorem Channel.strip_txInProgress : ch.strip.txInProgress = ch.txInProgress := rfl
@[simp] theorem Channel.strip_rxBuf : ch.strip.rxBuf = ch.rxBuf.write (ch.rxLen.toNat - 1) 0#8 := rfl
@[simp] theorem Channel.strip_rxLen : ch.strip.rxLen = ch.rxLen - 1#8 := rfl
@[simp] theorem Channel.strip_rxShift : ch.strip.rxShift = ch.rxShift := rfl
@[simp] theorem Channel.strip_txBuf : ch.strip.txBuf = ch.txBuf := rfl
@[simp] theorem Channel.strip_txLen : ch.strip.txLen = ch.txLen := rfl
@[simp] theorem Channel.strip_txCursor : ch.strip.txCursor = ch.txCursor := rfl
@[simp] theorem Channel.strip_txOut : ch.strip.txOut = ch.txOut := rfl
@[simp] theorem Channel.strip_txEn : ch.strip.txEn = ch.txEn := rfl
@[simp] theorem Channel.strip_driven : ch.strip.driven = ch.driven := rfl
@[simp] theorem Channel.strip_putPending : ch.strip.putPending = ch.putPending := rfl
@[simp] theorem Channel.strip_waiters : ch.strip.waiters = ch.waiters := rfl
@[simp] theorem Channel.strip_inject : ch.strip.inject = ch.inject := rfl

/-! ### `Channel.begun` -/

@[simp] theorem Channel.begun_cfg : ch.begun.cfg = ch.cfg := rfl
@[simp] theorem Channel.begun_state : ch.begun.state = 1#4 := rfl
@[simp] theorem Channel.begun_tis : ch.begun.tis = 0 := rfl
@[simp] theorem Channel.begun_initialized : ch.begun.initialized = true := rfl
@[simp] theorem Channel.begun_txReady : ch.begun.txReady = false := rfl
@[simp] theorem Channel.begun_txInProgress : ch.begun.txInProgress = false := rfl
@[simp] theorem Channel.begun_rxBuf : ch.begun.rxBuf = ch.rxBuf.write 0 0#8 := rfl
@[simp] theorem Channel.begun_rxLen : ch.begun.rxLen = 0#8 := rfl
@[simp] theorem Channel.begun_rxShift : ch.begun.rxShift = 0#8 := rfl
@[simp] theorem Channel.begun_txBuf : ch.begun.txBuf = ch.txBuf := rfl
@[simp] theorem Channel.begun_txLen : ch.begun.txLen = 0#8 := rfl
@[simp] theorem Channel.begun_txCursor : ch.begun.txCursor = 0 := rfl
@[simp] theorem Channel.begun_txOut : ch.begun.txOut = false := rfl
@[simp] theorem Channel.begun_txEn : ch.begun.txEn = false := rfl
@[simp] theorem Channel.begun_driven : ch.begun.driven = true := rfl
@[simp] theorem Channel.begun_putPending : ch.begun.putPending = ch.putPending := rfl
@[simp] theorem Channel.begun_waiters : ch.begun.waiters = ch.waiters := rfl
@[simp] theorem Channel.begun_inject : ch.begun.inject = ch.inject := rfl

/-! ### `Channel.armFlip` -/

@[simp] theorem Channel.armFlip_cfg (l : InputLine) : (ch.armFlip l).cfg = ch.cfg := by cases l <;> rfl
@[simp] theorem Channel.armFlip_state (l : InputLine) : (ch.armFlip l).state = ch.state := by cases l <;> rfl
@[simp] theorem Channel.armFlip_tis (l : InputLine) : (ch.armFlip l).tis = ch.tis := by cases l <;> rfl
@[simp] theorem Channel.armFlip_initialized (l : InputLine) : (ch.armFlip l).initialized = ch.initialized := by cases l <;> rfl
@[simp] theorem Channel.armFlip_txReady (l : InputLine) : (ch.armFlip l).txReady = ch.txReady := by cases l <;> rfl
@[simp] theorem Channel.armFlip_txInProgress (l : InputLine) : (ch.armFlip l).txInProgress = ch.txInProgress := by cases l <;> rfl
@[simp] theorem Channel.armFlip_rxBuf (l : InputLine) : (ch.armFlip l).rxBuf = ch.rxBuf := by cases l <;> rfl
@[simp] theorem Channel.armFlip_rxLen (l : InputLine) : (ch.armFlip l).rxLen = ch.rxLen := by cases l <;> rfl
@[simp] theorem Channel.armFlip_rxShift (l : InputLine) : (ch.armFlip l).rxShift = ch.rxShift := by cases l <;> rfl
@[simp] theorem Channel.armFlip_txBuf (l : InputLine) : (ch.armFlip l).txBuf = ch.txBuf := by cases l <;> rfl
@[simp] theorem Channel.armFlip_txLen (l : InputLine) : (ch.armFlip l).txLen = ch.txLen := by cases l <;> rfl
@[simp] theorem Channel.armFlip_txCursor (l : InputLine) : (ch.armFlip l).txCursor = ch.txCursor := by cases l <;> rfl
@[simp] theorem Channel.armFlip_txOut (l : InputLine) : (ch.armFlip l).txOut = ch.txOut := by cases l <;> rfl
@[simp] theorem Channel.armFlip_txEn (l : InputLine) : (ch.armFlip l).txEn = ch.txEn := by cases l <;> rfl
@[simp] theorem Channel.armFlip_driven (l : InputLine) : (ch.armFlip l).driven = ch.driven := by cases l <;> rfl
@[simp] theorem Channel.armFlip_putPending (l : InputLine) : (ch.armFlip l).putPending = ch.putPending := by cases l <;> rfl
@[simp] theorem Channel.armFlip_waiters (l : InputLine) : (ch.armFlip l).waiters = ch.waiters := by cases l <;> rfl

/-! ### Error entry -/

@[simp] theorem Channel.enterError_cfg (q : StateCode) (e : Label) : (ch.enterError q e).1.cfg = ch.cfg := rfl
@[simp] theorem Channel.enterError_state (q : StateCode) (e : Label) : (ch.enterError q e).1.state = q := rfl
@[simp] theorem Channel.enterError_tis (q : StateCode) (e : Label) : (ch.enterError q e).1.tis = 0 := rfl
@[simp] theorem Channel.enterError_initialized (q : StateCode) (e : Label) : (ch.enterError q e).1.initialized = ch.initialized := rfl
@[simp] theorem Channel.enterError_txReady (q : StateCode) (e : Label) : (ch.enterError q e).1.txReady = ch.txReady := rfl
@[simp] theorem Channel.enterError_txInProgress (q : StateCode) (e : Label) : (ch.enterError q e).1.txInProgress = ch.txInProgress := rfl
@[simp] theorem Channel.enterError_rxBuf (q : StateCode) (e : Label) : (ch.enterError q e).1.rxBuf = ch.rxBuf := rfl
@[simp] theorem Channel.enterError_rxLen (q : StateCode) (e : Label) : (ch.enterError q e).1.rxLen = ch.rxLen := rfl
@[simp] theorem Channel.enterError_rxShift (q : StateCode) (e : Label) : (ch.enterError q e).1.rxShift = ch.rxShift := rfl
@[simp] theorem Channel.enterError_txBuf (q : StateCode) (e : Label) : (ch.enterError q e).1.txBuf = ch.txBuf := rfl
@[simp] theorem Channel.enterError_txLen (q : StateCode) (e : Label) : (ch.enterError q e).1.txLen = ch.txLen := rfl
@[simp] theorem Channel.enterError_txCursor (q : StateCode) (e : Label) : (ch.enterError q e).1.txCursor = ch.txCursor := rfl
@[simp] theorem Channel.enterError_txOut (q : StateCode) (e : Label) : (ch.enterError q e).1.txOut = false := rfl
@[simp] theorem Channel.enterError_txEn (q : StateCode) (e : Label) : (ch.enterError q e).1.txEn = false := rfl
@[simp] theorem Channel.enterError_driven (q : StateCode) (e : Label) : (ch.enterError q e).1.driven = ch.driven := rfl
@[simp] theorem Channel.enterError_putPending (q : StateCode) (e : Label) : (ch.enterError q e).1.putPending = ch.putPending := rfl
@[simp] theorem Channel.enterError_waiters (q : StateCode) (e : Label) : (ch.enterError q e).1.waiters = ch.waiters := rfl
@[simp] theorem Channel.enterError_inject (q : StateCode) (e : Label) : (ch.enterError q e).1.inject = ch.inject := rfl
@[simp] theorem Channel.enterError_label (q : StateCode) (e : Label) : (ch.enterError q e).2 = some e := rfl
@[simp] theorem Channel.abandonTx_cfg (e : Label) : (ch.abandonTx e).1.cfg = ch.cfg := rfl
@[simp] theorem Channel.abandonTx_state (e : Label) : (ch.abandonTx e).1.state = 1#4 := rfl
@[simp] theorem Channel.abandonTx_tis (e : Label) : (ch.abandonTx e).1.tis = 0 := rfl
@[simp] theorem Channel.abandonTx_initialized (e : Label) : (ch.abandonTx e).1.initialized = ch.initialized := rfl
@[simp] theorem Channel.abandonTx_txReady (e : Label) : (ch.abandonTx e).1.txReady = ch.txReady := rfl
@[simp] theorem Channel.abandonTx_txInProgress (e : Label) : (ch.abandonTx e).1.txInProgress = false := rfl
@[simp] theorem Channel.abandonTx_rxBuf (e : Label) : (ch.abandonTx e).1.rxBuf = ch.rxBuf := rfl
@[simp] theorem Channel.abandonTx_rxLen (e : Label) : (ch.abandonTx e).1.rxLen = ch.rxLen := rfl
@[simp] theorem Channel.abandonTx_rxShift (e : Label) : (ch.abandonTx e).1.rxShift = ch.rxShift := rfl
@[simp] theorem Channel.abandonTx_txBuf (e : Label) : (ch.abandonTx e).1.txBuf = ch.txBuf := rfl
@[simp] theorem Channel.abandonTx_txLen (e : Label) : (ch.abandonTx e).1.txLen = ch.txLen := rfl
@[simp] theorem Channel.abandonTx_txCursor (e : Label) : (ch.abandonTx e).1.txCursor = 0 := rfl
@[simp] theorem Channel.abandonTx_txOut (e : Label) : (ch.abandonTx e).1.txOut = false := rfl
@[simp] theorem Channel.abandonTx_txEn (e : Label) : (ch.abandonTx e).1.txEn = false := rfl
@[simp] theorem Channel.abandonTx_driven (e : Label) : (ch.abandonTx e).1.driven = ch.driven := rfl
@[simp] theorem Channel.abandonTx_putPending (e : Label) : (ch.abandonTx e).1.putPending = ch.putPending := rfl
@[simp] theorem Channel.abandonTx_waiters (e : Label) : (ch.abandonTx e).1.waiters = ch.waiters := rfl
@[simp] theorem Channel.abandonTx_inject (e : Label) : (ch.abandonTx e).1.inject = ch.inject := rfl
@[simp] theorem Channel.abandonTx_label (e : Label) : (ch.abandonTx e).2 = some e := rfl

/-! ### `State.select` -/

@[simp] theorem State.select_chans (c : Nat) : (s.select c).chans = s.chans := rfl
@[simp] theorem State.select_nTimers (c : Nat) : (s.select c).nTimers = s.nTimers := rfl
@[simp] theorem State.select_registry (c : Nat) : (s.select c).registry = s.registry := rfl
@[simp] theorem State.select_due (c : Nat) : (s.select c).due = s.due := rfl
@[simp] theorem State.select_active (c : Nat) : (s.select c).active = c := rfl
@[simp] theorem State.select_queue (c : Nat) : (s.select c).queue = s.queue := rfl
@[simp] theorem State.select_draws (c : Nat) : (s.select c).draws = s.draws := rfl
@[simp] theorem State.select_out (c : Nat) : (s.select c).out = s.out := rfl

/-! ### `State.finish` -/

@[simp] theorem State.finish_chans (r : Option Response) (l : Option Label) : (s.finish ch r l).chans = s.chans.set s.active ch := rfl
@[simp] theorem State.finish_nTimers (r : Option Response) (l : Option Label) : (s.finish ch r l).nTimers = s.nTimers := rfl
@[simp] theorem State.finish_registry (r : Option Response) (l : Option Label) : (s.finish ch r l).registry = s.registry := rfl
@[simp] theorem State.finish_due (r : Option Response) (l : Option Label) : (s.finish ch r l).due = s.due := rfl
@[simp] theorem State.finish_active (r : Option Response) (l : Option Label) : (s.finish ch r l).active = s.active := rfl
@[simp] theorem State.finish_queue (r : Option Response) (l : Option Label) : (s.finish ch r l).queue = s.queue := rfl
@[simp] theorem State.finish_draws (r : Option Response) (l : Option Label) : (s.finish ch r l).draws = s.draws := rfl
@[simp] theorem State.finish_out (r : Option Response) (l : Option Label) : (s.finish ch r l).out = { chan := s.active, resp := r, label := l } := rfl

/-! ### `State.idle` -/

@[simp] theorem State.idle_chans : s.idle.chans = s.chans := rfl
@[simp] theorem State.idle_nTimers : s.idle.nTimers = s.nTimers := rfl
@[simp] theorem State.idle_registry : s.idle.registry = s.registry := rfl
@[simp] theorem State.idle_due : s.idle.due = s.due := rfl
@[simp] theorem State.idle_active : s.idle.active = s.active := rfl
@[simp] theorem State.idle_queue : s.idle.queue = s.queue := rfl
@[simp] theorem State.idle_draws : s.idle.draws = s.draws := rfl
@[simp] theorem State.idle_out : s.idle.out = { chan := s.active, resp := none, label := none } := rfl

/-! ### `State.afterTick` -/

@[simp] theorem State.afterTick_chans (r : Channel × Option Label) : (s.afterTick ch r).chans = s.chans.set s.active { r.1 with inject := Injection.none } := rfl
@[simp] theorem State.afterTick_nTimers (r : Channel × Option Label) : (s.afterTick ch r).nTimers = s.nTimers := rfl
@[simp] theorem State.afterTick_registry (r : Channel × Option Label) : (s.afterTick ch r).registry = s.registry := rfl
@[simp] theorem State.afterTick_due (r : Channel × Option Label) : (s.afterTick ch r).due = s.due := rfl
@[simp] theorem State.afterTick_active (r : Channel × Option Label) : (s.afterTick ch r).active = s.active := rfl
@[simp] theorem State.afterTick_queue (r : Channel × Option Label) : (s.afterTick ch r).queue = s.queue := rfl
@[simp] theorem State.afterTick_draws (r : Channel × Option Label) : (s.afterTick ch r).draws = s.drawsAfterSample ch := rfl
@[simp] theorem State.afterTick_out (r : Channel × Option Label) : (s.afterTick ch r).out = { chan := s.active, resp := none, label := r.2 } := rfl

/-! ### `State.register` -/

@[simp] theorem State.register_chans (t : Nat) : (s.register t).chans = s.chans := rfl
@[simp] theorem State.register_nTimers (t : Nat) : (s.register t).nTimers = s.nTimers := rfl
@[simp] theorem State.register_registry (t : Nat) : (s.register t).registry = s.registry ++ [{ timer := t, chan := s.active }] := rfl
@[simp] theorem State.register_due (t : Nat) : (s.register t).due = s.due := rfl
@[simp] theorem State.register_active (t : Nat) : (s.register t).active = s.active := rfl
@[simp] theorem State.register_queue (t : Nat) : (s.register t).queue = s.queue := rfl
@[simp] theorem State.register_draws (t : Nat) : (s.register t).draws = s.draws := rfl
@[simp] theorem State.register_out (t : Nat) : (s.register t).out = s.out := rfl

/-! ### `State.popDue` -/

@[simp] theorem State.popDue_chans (t : Nat) : (s.popDue t).chans = s.chans := rfl
@[simp] theorem State.popDue_nTimers (t : Nat) : (s.popDue t).nTimers = s.nTimers := rfl
@[simp] theorem State.popDue_registry (t : Nat) : (s.popDue t).registry = s.registry := rfl
@[simp] theorem State.popDue_due (t : Nat) : (s.popDue t).due = s.due.eraseP (fun r => r.timer == t) := rfl
@[simp] theorem State.popDue_active (t : Nat) : (s.popDue t).active = s.active := rfl
@[simp] theorem State.popDue_queue (t : Nat) : (s.popDue t).queue = s.queue := rfl
@[simp] theorem State.popDue_draws (t : Nat) : (s.popDue t).draws = s.draws := rfl
@[simp] theorem State.popDue_out (t : Nat) : (s.popDue t).out = s.out := rfl

@[simp] theorem State.select_self (c : Nat) : (s.select c).self = s.chans[c]? := rfl

end Sys2Proof.Machine
end

