-- ==== Sys2Proof/Laws/Ops.lean ====
section
/-! SUPPORT. What each shared operation can do, said once: cited by the proofs in place of unfolding the operation. -/

namespace Sys2Proof.Machine

variable {s t : State} {ch : Channel}

/-! ### Host steps -/

theorem onHost_eq (h : s.self = some ch) (body : Channel → Host.Outcome State Fault Refusal) :
    onHost s body = body ch := by simp [onHost, h]

/-- A host step that answers a next state ran its body on its channel. -/
theorem onHost_next {body : Channel → Host.Outcome State Fault Refusal} (h : onHost s body = .next t) :
    ∃ ch, s.self = some ch ∧ body ch = .next t := by
  unfold onHost at h
  split at h
  · cases h
  · exact ⟨_, ‹_›, h⟩

/-! ### Tick steps -/

variable {guard : Lines → Channel → Option Fault} {rule : Lines → Channel → Channel × Option Label}

/-- A tick step whose guard passes completes with its rule's result (R100). -/
theorem onTick_eq (h : s.self = some ch) (hg : guard (s.sampled ch) ch = none) :
    onTick s guard rule = .next (s.afterTick ch (rule (s.sampled ch) ch)) := by simp [onTick, h, hg]

/-- A tick step that answers a next state sampled its lines, passed its guard and ran its rule. -/
theorem onTick_next (h : onTick s guard rule = .next t) :
    ∃ ch, s.self = some ch ∧ guard (s.sampled ch) ch = none ∧ t = s.afterTick ch (rule (s.sampled ch) ch) := by
  unfold onTick at h
  split at h
  · cases h
  · rename_i ch hs
    split at h
    · cases h
    · exact ⟨ch, hs, ‹_›, by cases h; rfl⟩

/-- A tick step faults only where its guard says so. -/
theorem onTick_fault {f : Fault} (h : onTick s guard rule = .fault f) :
    ∃ ch, s.self = some ch ∧ guard (s.sampled ch) ch = some f := by
  unfold onTick at h
  split at h
  · cases h
  · rename_i ch hs
    split at h
    · cases h; exact ⟨ch, hs, ‹_›⟩
    · cases h

@[simp] theorem inRange_eq (l : Lines) : inRange l ch = none := rfl

theorem faultUnless_none {ok : Bool} {f : Fault} : faultUnless ok f = none ↔ ok = true := by
  cases ok <;> simp [faultUnless]

/-! ### `PUT`'s later phases -/

/-- A commit attempt that answers a next state stages the held payload or changes nothing (R183). -/
theorem commitPut_next (h : commitPut s = .next t) :
    ∃ ch, s.self = some ch ∧
      ((ch.commitEnabled = none ∧ t = s.idle) ∨
        ∃ d, ch.commitEnabled = some d ∧ d.length < ch.cfg.cap.bytes ∧
          t = s.finish (ch.stage d) (some .putTrue) none) := by
  obtain ⟨ch, hs, h⟩ := onHost_next h
  refine ⟨ch, hs, ?_⟩
  split at h
  · exact .inl ⟨‹_›, by cases h; rfl⟩
  · split at h
    · exact .inr ⟨_, ‹_›, ‹_›, by cases h; rfl⟩
    · cases h

theorem commitEnabled_eq_some {d : List Byte} :
    ch.commitEnabled = some d ↔ ch.txInProgress = false ∧ ch.putPending = some d := by
  unfold Channel.commitEnabled
  split <;> simp_all

/-- A retried issue phase takes the free lock for the waiting caller or changes nothing (R182, R188). -/
theorem retryIssue_next {k : Nat} (h : retryIssue s k = .next t) :
    ∃ ch, s.self = some ch ∧
      (t = s.idle ∨ ∃ d, ch.putPending = none ∧ ch.waiters[k]? = some d ∧
        t = s.finish { ch.takeLock d with waiters := ch.waiters.eraseIdx k } none none) := by
  obtain ⟨ch, hs, h⟩ := onHost_next h
  refine ⟨ch, hs, ?_⟩
  split at h
  · exact .inr ⟨_, ‹_›, ‹_›, by cases h; rfl⟩
  · exact .inl (by cases h; rfl)

/-! ### Refused commands, tick sources, harness -/

theorem refuseCommand_next (h : refuseCommand s = .next t) :
    ∃ ch, s.self = some ch ∧ t = s.finish ch (some .refusedCode) none := by
  obtain ⟨ch, hs, h⟩ := onHost_next h
  exact ⟨ch, hs, by cases h; rfl⟩

theorem startPeriod_next {k : Nat} (h : startPeriod s k = .next t) :
    k < s.nTimers ∧ t = { s with due := s.due ++ s.registry.filter (fun r => r.timer == k), out := StepOut.none } := by
  unfold startPeriod at h
  split at h
  · exact ⟨‹_›, by cases h; rfl⟩
  · cases h

theorem flipLine_next {l : InputLine} (h : flipLine s l = .next t) :
    ∃ ch, s.self = some ch ∧ t = s.finish (ch.armFlip l) none none := by
  obtain ⟨ch, hs, h⟩ := onHost_next h
  exact ⟨ch, hs, by cases h; rfl⟩

theorem latchLines_next (h : latchLines s = .next t) :
    ∃ ch, s.self = some ch ∧
      t = { s.finish { ch with inject := { ch.inject with latched := some (s.wireLevels ch) } } none none with
            draws := s.drawsAfterRead ch } := by
  obtain ⟨ch, hs, h⟩ := onHost_next h
  exact ⟨ch, hs, by cases h; rfl⟩

/-! ### Delivery -/

theorem deliverCommand_eq {bytes : List Byte} {i : Instr} (h : decodeHost bytes = some i) :
    deliverCommand s bytes = exec i s := by simp [deliverCommand, h]

theorem deliverTick_eq {i : Instr} (hs : s.self = some ch) (h : decodeTick ch.state = some i) :
    deliverTick s = exec i s := by simp [deliverTick, hs, h]

/-- A tick event that answers a next state ran the rule its channel's state code selects (R104). -/
theorem deliverTick_next (h : deliverTick s = .next t) :
    ∃ ch i, s.self = some ch ∧ decodeTick ch.state = some i ∧ exec i s = .next t := by
  unfold deliverTick at h
  split at h
  · cases h
  · rename_i ch hs
    split at h
    · exact ⟨ch, _, hs, ‹_›, h⟩
    · cases h

/-- A tick source's delivery ticks the channel due first, or changes nothing. -/
theorem deliverDue_next {k : Nat} (h : deliverDue s k = .next t) :
    (s.nextDue k = none ∧ t = { s with out := StepOut.none }) ∨
      ∃ c, s.nextDue k = some c ∧ deliverTick ((s.popDue k).select c) = .next t := by
  unfold deliverDue at h
  split at h
  · split at h
    · exact .inr ⟨_, ‹_›, h⟩
    · exact .inl ⟨‹_›, by cases h; rfl⟩
  · cases h

theorem step_nil (h : s.queue = []) : step s = .next { s with out := StepOut.none } := by simp [step, h, awaitEvent]

theorem step_cons {e : Event} {rest : List Event} (h : s.queue = e :: rest) :
    step s = deliver { s with queue := rest } e := by simp [step, h]

end Sys2Proof.Machine
end

