-- ==== Sys2Proof/Laws/PerInstr.lean ====
section
/-! SUPPORT. Facts proved instruction by instruction. `TableRow`: the encoding of an instruction carries the match value of
its row in spec/opcode_table.json. -/

namespace Sys2Proof.Laws

/-- The bits a table row matches on: the command code, or the state code (R70, R71). -/
def selector : Encoded → Nat
  | .host bytes => (bytes.headD 0#8).toNat
  | .tick code => code.toNat

/-- The match value of each instruction's row. -/
def rowValue : Instr → Nat
  | .hostBegin => 0x1
  | .hostPut _ => 0x2
  | .hostRdy => 0x3
  | .hostGet => 0x4
  | .hostStatus => 0x5
  | .tickNotinit => 0x0
  | .tickReady => 0x1
  | .tickRxStart => 0x2
  | .tickRxChar => 0x3
  | .tickRxAck => 0x4
  | .tickRxChecksum => 0x5
  | .tickRxAbort => 0x6
  | .tickRxErr => 0x7
  | .tickRxDone => 0x8
  | .tickTxStart => 0x9
  | .tickTxChar => 0xA
  | .tickTxEnd => 0xB
  | .tickTxAck => 0xC
  | .tickTxErr => 0xD
  | .tickTxDone => 0xE

def TableRow.Statement (i : Instr) : Prop := selector (encode i) = rowValue i

theorem TableRow.hostBegin : TableRow.Statement .hostBegin := rfl
theorem TableRow.hostPut (d : List Byte) : TableRow.Statement (.hostPut d) := rfl
theorem TableRow.hostRdy : TableRow.Statement .hostRdy := rfl
theorem TableRow.hostGet : TableRow.Statement .hostGet := rfl
theorem TableRow.hostStatus : TableRow.Statement .hostStatus := rfl
theorem TableRow.tickNotinit : TableRow.Statement .tickNotinit := rfl
theorem TableRow.tickReady : TableRow.Statement .tickReady := rfl
theorem TableRow.tickRxStart : TableRow.Statement .tickRxStart := rfl
theorem TableRow.tickRxChar : TableRow.Statement .tickRxChar := rfl
theorem TableRow.tickRxAck : TableRow.Statement .tickRxAck := rfl
theorem TableRow.tickRxChecksum : TableRow.Statement .tickRxChecksum := rfl
theorem TableRow.tickRxAbort : TableRow.Statement .tickRxAbort := rfl
theorem TableRow.tickRxErr : TableRow.Statement .tickRxErr := rfl
theorem TableRow.tickRxDone : TableRow.Statement .tickRxDone := rfl
theorem TableRow.tickTxStart : TableRow.Statement .tickTxStart := rfl
theorem TableRow.tickTxChar : TableRow.Statement .tickTxChar := rfl
theorem TableRow.tickTxEnd : TableRow.Statement .tickTxEnd := rfl
theorem TableRow.tickTxAck : TableRow.Statement .tickTxAck := rfl
theorem TableRow.tickTxErr : TableRow.Statement .tickTxErr := rfl
theorem TableRow.tickTxDone : TableRow.Statement .tickTxDone := rfl

end Sys2Proof.Laws
end

