-- ==== Sys2Proof/Laws/Step.lean ====
section
/-! SUPPORT. What a step can do to a channel, said once: every invariant and frame is derived from `deliver_next`. -/

namespace Sys2Proof.Machine

/-- A tick rule with its guard. -/
structure TickRule where
  guard : Lines → Channel → Option Fault
  rule : Lines → Channel → Channel × Option Label

/-- The rule of each tick operation. -/
def tickRule : Instr → Option TickRule
  | .tickNotinit => some ⟨inRange, notinitRule⟩
  | .tickReady => some ⟨inRange, readyRule⟩
  | .tickRxStart => some ⟨rxStartGuard, rxStartRule⟩
  | .tickRxChar => some ⟨rxCharGuard, rxCharRule⟩
  | .tickRxAck => some ⟨rxAckGuard, rxAckRule⟩
  | .tickRxChecksum => some ⟨rxChecksumGuard, rxChecksumRule⟩
  | .tickRxAbort => some ⟨inRange, rxAbortRule⟩
  | .tickRxErr => some ⟨inRange, rxErrRule⟩
  | .tickRxDone => some ⟨inRange, rxDoneRule⟩
  | .tickTxStart => some ⟨txStartGuard, txStartRule⟩
  | .tickTxChar => some ⟨txCharGuard, txCharRule⟩
  | .tickTxEnd => some ⟨inRange, txEndRule⟩
  | .tickTxAck => some ⟨txAckGuard, txAckRule⟩
  | .tickTxErr => some ⟨inRange, txErrRule⟩
  | .tickTxDone => some ⟨inRange, txDoneRule⟩
  | .hostBegin | .hostPut _ | .hostRdy | .hostGet | .hostStatus => none

theorem exec_of_tickRule {i : Instr} {r : TickRule} (s : State) (h : tickRule i = some r) :
    exec i s = onTick s r.guard r.rule := by
  cases i <;> simp only [tickRule, Option.some.injEq, reduceCtorEq] at h <;> subst h <;> rfl

/-- The tick rows of R74's opcode map. -/
def tickTable : List (StateCode × Instr) :=
  [(0#4, .tickNotinit), (1#4, .tickReady), (2#4, .tickRxStart), (3#4, .tickRxChar), (4#4, .tickRxAck),
   (5#4, .tickRxChecksum), (6#4, .tickRxAbort), (7#4, .tickRxErr), (8#4, .tickRxDone), (9#4, .tickTxStart),
   (10#4, .tickTxChar), (11#4, .tickTxEnd), (12#4, .tickTxAck), (13#4, .tickTxErr), (14#4, .tickTxDone)]

/-- The tick rule a state code selects, with the code it is selected by (R104). -/
theorem decodeTick_cases {q : StateCode} {i : Instr} (h : decodeTick q = some i) :
    (q = Code.notinit ∧ i = .tickNotinit) ∨ (q = Code.ready ∧ i = .tickReady) ∨ (q = Code.rxStart ∧ i = .tickRxStart) ∨
    (q = Code.rxChar ∧ i = .tickRxChar) ∨ (q = Code.rxAck ∧ i = .tickRxAck) ∨
    (q = Code.rxChecksum ∧ i = .tickRxChecksum) ∨ (q = Code.rxAbort ∧ i = .tickRxAbort) ∨
    (q = Code.rxErr ∧ i = .tickRxErr) ∨ (q = Code.rxDone ∧ i = .tickRxDone) ∨ (q = Code.txStart ∧ i = .tickTxStart) ∨
    (q = Code.txChar ∧ i = .tickTxChar) ∨ (q = Code.txEnd ∧ i = .tickTxEnd) ∨ (q = Code.txAck ∧ i = .tickTxAck) ∨
    (q = Code.txErr ∧ i = .tickTxErr) ∨ (q = Code.txDone ∧ i = .tickTxDone) := by
  have key : ∀ q : StateCode, decodeTick q = none ∨ ∃ x ∈ tickTable, q = x.1 ∧ decodeTick q = some x.2 := by decide
  rcases key q with hn | ⟨x, hx, hq, hi⟩
  · rw [h] at hn; cases hn
  · rw [h] at hi
    injection hi with hi
    subst hi hq
    simp only [tickTable, List.mem_cons, List.not_mem_nil, or_false] at hx
    rcases hx with rfl | rfl | rfl | rfl | rfl | rfl | rfl | rfl | rfl | rfl | rfl | rfl | rfl | rfl | rfl <;> simp

/-- A state code selects a tick operation, and a tick operation has a rule. -/
theorem tickRule_of_decodeTick {q : StateCode} {i : Instr} (h : decodeTick q = some i) :
    ∃ r, tickRule i = some r := by
  rcases decodeTick_cases h with h | h | h | h | h | h | h | h | h | h | h | h | h | h | h <;> exact h.2 ▸ ⟨_, rfl⟩

/-- A command string that decodes is one of the five commands, written out (R71, R74). -/
theorem decodeHost_cases {bytes : List Byte} {i : Instr} (h : decodeHost bytes = some i) :
    (bytes = [0x01#8] ∧ i = .hostBegin) ∨
    (∃ n d, bytes = 0x02#8 :: n :: d ∧ d.length = n.toNat ∧ i = .hostPut d) ∨
    (bytes = [0x03#8] ∧ i = .hostRdy) ∨ (bytes = [0x04#8] ∧ i = .hostGet) ∨ (bytes = [0x05#8] ∧ i = .hostStatus) := by
  unfold decodeHost at h
  split at h
  · rename_i hl
    cases bytes with
    | nil => cases h
    | cons c rest =>
      by_cases hc : c = Command.put
      · subst hc
        cases rest with
        | nil => simp [commandLength] at hl
        | cons n d =>
          simp only [commandLength, List.length_cons, List.headD_cons, if_true] at hl
          simp only [show ¬ Command.put = Command.begin_ by decide, if_false, if_true, List.drop_one, List.tail_cons] at h
          injection h with h
          exact .inr (.inl ⟨n, d, rfl, by omega, h.symm⟩)
      · simp only [commandLength, hc, if_false, List.length_cons] at hl
        have hr : rest = [] := List.eq_nil_of_length_eq_zero (by omega)
        subst hr
        simp only [hc, if_false] at h
        split at h
        · simp_all
        · split at h
          · simp_all
          · split at h
            · simp_all
            · split at h
              · simp_all
              · cases h
  · cases h

/-- Everything one event can do to the channel it acts on: the channel `ch` with index `c` becomes the last argument. -/
inductive ChannelMove (e : Event) (c : Nat) (ch : Channel) : Channel → Prop
  /-- A command that changes nothing, a refused command, or a held step that is not enabled. -/
  | same : ChannelMove e c ch ch
  | begin (he : e = .host c [0x01#8]) (h : ch.initialized = false) : ChannelMove e c ch ch.begun
  | lock (d : List Byte) (hi : ch.initialized = true) (hl : d.length ≤ ch.cfg.cap.bytes - 2) (ht : Config.term ∉ d)
      (hp : ch.putPending = none) : ChannelMove e c ch (ch.takeLock d)
  | wait (d : List Byte) (hi : ch.initialized = true) (hl : d.length ≤ ch.cfg.cap.bytes - 2) (ht : Config.term ∉ d)
      (hp : ch.putPending ≠ none) : ChannelMove e c ch { ch with waiters := ch.waiters ++ [d] }
  | get (he : e = .host c [0x04#8]) (hs : ch.state = Code.rxDone) (hl : ch.rxLen.toNat ≤ ch.cfg.cap.bytes) :
      ChannelMove e c ch { ch with rxLen := 0#8 }
  | issue (k : Nat) (d : List Byte) (he : e = .issue c k) (hp : ch.putPending = none) (hw : ch.waiters[k]? = some d) :
      ChannelMove e c ch { ch.takeLock d with waiters := ch.waiters.eraseIdx k }
  | commit (d : List Byte) (he : e = .commit c) (hb : ch.txInProgress = false) (hp : ch.putPending = some d)
      (hl : d.length < ch.cfg.cap.bytes) : ChannelMove e c ch (ch.stage d)
  | flip (l : InputLine) (he : e = .flip c l) : ChannelMove e c ch (ch.armFlip l)
  | latch (x : Lines) (he : e = .latch c) :
      ChannelMove e c ch { ch with inject := { ch.inject with latched := some x } }
  | tick (l : Lines) (i : Instr) (r : TickRule) (hd : decodeTick ch.state = some i) (hr : tickRule i = some r)
      (hg : r.guard l ch = none) : ChannelMove e c ch { (r.rule l ch).1 with inject := Injection.none }

/-- What `deliver` leaves of the system when it answers a next state: the channels, but for the one it acted on, the
configuration of the tick sources, the interleaving, and the registry but for a first `BEGIN`. -/
structure Delivered (s : State) (e : Event) (t : State) : Prop where
  nTimers : t.nTimers = s.nTimers
  queue : t.queue = s.queue
  moves : (t.chans = s.chans ∧ t.registry = s.registry) ∨
    ∃ ch ch', s.chans[t.active]? = some ch ∧ ChannelMove e t.active ch ch' ∧ t.chans = s.chans.set t.active ch' ∧
      (t.registry = s.registry ∧ ch'.initialized = ch.initialized ∨
        ch.initialized = false ∧ ch'.initialized = true ∧
          t.registry = s.registry ++ [{ timer := ch.cfg.timer, chan := t.active }])

/-- No tick rule touches `initialized` or the configuration. -/
theorem tickRule_initialized {i : Instr} {r : TickRule} (h : tickRule i = some r) (l : Lines) (ch : Channel) :
    (r.rule l ch).1.initialized = ch.initialized ∧ (r.rule l ch).1.cfg = ch.cfg := by
  cases i <;> simp only [tickRule, Option.some.injEq, reduceCtorEq] at h <;> subst h <;>
    (try unfold notinitRule) <;> (try unfold readyRule) <;> (try unfold rxStartRule) <;> (try unfold rxCharRule) <;>
    (try unfold rxAckRule) <;> (try unfold rxChecksumRule) <;> (try unfold rxDoneRule) <;> (try unfold txStartRule) <;>
    (try unfold txCharRule) <;> (try unfold txAckRule) <;> dsimp only <;>
    (repeat' split) <;> exact ⟨rfl, rfl⟩

theorem onTick_delivered {s t : State} {ch : Channel} {e : Event} {i : Instr} {r : TickRule}
    (hs : s.self = some ch) (hd : decodeTick ch.state = some i) (hr : tickRule i = some r)
    (h : onTick s r.guard r.rule = .next t) : Delivered s e t := by
  obtain ⟨ch', hs', hg, rfl⟩ := onTick_next h
  rw [hs] at hs'
  cases hs'
  exact ⟨rfl, rfl, .inr ⟨ch, _, hs, .tick _ i r hd hr hg, rfl, .inl ⟨rfl, (tickRule_initialized hr _ _).1⟩⟩⟩

/-- A tick event does to its channel what the selected rule does. -/
theorem deliverTick_delivered {s t : State} {e : Event} (h : deliverTick s = .next t) : Delivered s e t := by
  obtain ⟨ch, i, hs, hd, h⟩ := deliverTick_next h
  obtain ⟨r, hr⟩ := tickRule_of_decodeTick hd
  rw [exec_of_tickRule s hr] at h
  exact onTick_delivered hs hd hr h

theorem finish_same_delivered {s : State} {ch : Channel} {e : Event} {r : Option Response} {l : Option Label}
    (hs : s.self = some ch) : Delivered s e (s.finish ch r l) :=
  ⟨rfl, rfl, .inr ⟨ch, ch, hs, .same, rfl, .inl ⟨rfl, rfl⟩⟩⟩

theorem deliverCommand_delivered {s t : State} {bytes : List Byte} (h : deliverCommand s bytes = .next t) :
    Delivered s (.host s.active bytes) t ∧ t.active = s.active := by
  unfold deliverCommand at h
  split at h
  · rename_i i hd
    rcases decodeHost_cases hd with ⟨rfl, rfl⟩ | ⟨n, d, rfl, _, rfl⟩ | ⟨rfl, rfl⟩ | ⟨rfl, rfl⟩ | ⟨rfl, rfl⟩
    · obtain ⟨ch, hs, h⟩ := onHost_next h
      split at h
      · cases h; exact ⟨finish_same_delivered hs, rfl⟩
      · rename_i hi
        cases h
        have hi : ch.initialized = false := by simpa using hi
        exact ⟨⟨rfl, rfl, .inr ⟨ch, _, hs, .begin rfl hi, rfl, .inr ⟨hi, rfl, rfl⟩⟩⟩, rfl⟩
    · obtain ⟨ch, hs, h⟩ := onHost_next h
      split at h
      · cases h; exact ⟨finish_same_delivered hs, rfl⟩
      · split at h
        · cases h; exact ⟨finish_same_delivered hs, rfl⟩
        · split at h
          · cases h; exact ⟨finish_same_delivered hs, rfl⟩
          · rename_i hi hl ht
            have hi : ch.initialized = true := by simpa using hi
            have hl : d.length ≤ ch.cfg.cap.bytes - 2 := by omega
            split at h
            · cases h
              exact ⟨⟨rfl, rfl, .inr ⟨ch, _, hs, .lock d hi hl ht ‹_›, rfl, .inl ⟨rfl, rfl⟩⟩⟩, rfl⟩
            · rename_i hp
              cases h
              exact ⟨⟨rfl, rfl, .inr ⟨ch, _, hs, .wait d hi hl ht (by simp [hp]), rfl, .inl ⟨rfl, rfl⟩⟩⟩, rfl⟩
    · obtain ⟨ch, hs, h⟩ := onHost_next h
      cases h; exact ⟨finish_same_delivered hs, rfl⟩
    · obtain ⟨ch, hs, h⟩ := onHost_next h
      split at h
      · cases h; exact ⟨finish_same_delivered hs, rfl⟩
      · rename_i hq
        split at h
        · cases h
          exact ⟨⟨rfl, rfl, .inr ⟨ch, _, hs, .get rfl (by simpa using hq) ‹_›, rfl, .inl ⟨rfl, rfl⟩⟩⟩, rfl⟩
        · cases h
    · obtain ⟨ch, hs, h⟩ := onHost_next h
      cases h; exact ⟨finish_same_delivered hs, rfl⟩
  · obtain ⟨ch, hs, rfl⟩ := refuseCommand_next h
    exact ⟨finish_same_delivered hs, rfl⟩

/-- What one event can do. -/
theorem deliver_next {s t : State} {e : Event} (h : deliver s e = .next t) : Delivered s e t := by
  cases e with
  | host c bytes =>
    obtain ⟨⟨h1, h2, h3⟩, _⟩ := deliverCommand_delivered (s := s.select c) h
    exact ⟨h1, h2, h3⟩
  | issue c k =>
    obtain ⟨ch, hs, h | ⟨d, hp, hw, h⟩⟩ := retryIssue_next h
    · subst h; exact ⟨rfl, rfl, .inl ⟨rfl, rfl⟩⟩
    · subst h; exact ⟨rfl, rfl, .inr ⟨ch, _, hs, .issue k d rfl hp hw, rfl, .inl ⟨rfl, rfl⟩⟩⟩
  | commit c =>
    obtain ⟨ch, hs, ⟨_, h⟩ | ⟨d, hc, hl, h⟩⟩ := commitPut_next h
    · subst h; exact ⟨rfl, rfl, .inl ⟨rfl, rfl⟩⟩
    · subst h
      obtain ⟨hb, hp⟩ := commitEnabled_eq_some.1 hc
      exact ⟨rfl, rfl, .inr ⟨ch, _, hs, .commit d rfl hb hp hl, rfl, .inl ⟨rfl, rfl⟩⟩⟩
  | tick c =>
    obtain ⟨h1, h2, h3⟩ := deliverTick_delivered (s := s.select c) (e := .tick c) h
    exact ⟨h1, h2, h3⟩
  | strobe k =>
    obtain ⟨_, rfl⟩ := startPeriod_next h
    exact ⟨rfl, rfl, .inl ⟨rfl, rfl⟩⟩
  | deliver k =>
    rcases deliverDue_next h with ⟨_, rfl⟩ | ⟨c, _, h⟩
    · exact ⟨rfl, rfl, .inl ⟨rfl, rfl⟩⟩
    · obtain ⟨h1, h2, h3⟩ := deliverTick_delivered (s := (s.popDue k).select c) (e := .deliver k) h
      exact ⟨h1, h2, h3⟩
  | flip c l =>
    obtain ⟨ch, hs, rfl⟩ := flipLine_next h
    exact ⟨rfl, rfl, .inr ⟨ch, _, hs, .flip l rfl, rfl, .inl ⟨rfl, by simp⟩⟩⟩
  | latch c =>
    obtain ⟨ch, hs, rfl⟩ := latchLines_next h
    exact ⟨rfl, rfl, .inr ⟨ch, _, hs, .latch _ rfl, rfl, .inl ⟨rfl, rfl⟩⟩⟩

/-- What one step can do: nothing, or what the first event of the queue does. -/
theorem step_next {s t : State} (h : step s = .next t) :
    (s.queue = [] ∧ t = { s with out := StepOut.none }) ∨
      ∃ e rest, s.queue = e :: rest ∧ deliver { s with queue := rest } e = .next t := by
  unfold step at h
  split at h
  · cases h; exact .inl ⟨‹_›, rfl⟩
  · exact .inr ⟨_, _, ‹_›, h⟩

/-- A property of channels that every move keeps is kept by every step. -/
theorem step_keeps_allChannels {P : Channel → Prop} {s t : State}
    (hmove : ∀ e c ch ch', ch ∈ s.chans → P ch → ChannelMove e c ch ch' → P ch')
    (hs : s.AllChannels P) (h : step s = .next t) : t.AllChannels P := by
  rcases step_next h with ⟨_, rfl⟩ | ⟨e, rest, _, h⟩
  · exact hs
  · rcases (deliver_next h).moves with ⟨hc, _⟩ | ⟨ch, ch', hch, hm, hc, _⟩
    · intro x hx; rw [hc] at hx; exact hs x hx
    · intro x hx
      rw [hc] at hx
      rcases List.mem_or_eq_of_mem_set hx with hx | rfl
      · exact hs x hx
      · exact hmove _ _ _ _ (List.mem_of_getElem? hch) (hs _ (List.mem_of_getElem? hch)) hm

end Sys2Proof.Machine
end

