-- ==== Sys2Proof/Tests/Slice0.lean ====
section
/-! SUPPORT. Named tests, each by evaluation. Expected words are written from spec/30_encoding.md R71 and R74, expected
steps from the vectors of spec/95_test_vectors.md (VC, VR, VT, VH), named in each test. The `witness_` theorems show, for
each statement with hypotheses, a state and operands that meet them together. -/

namespace Sys2Proof.Tests

open Sys2Proof Sys2Proof.Machine Sys2Proof.Claims

/-! ### Well-formedness -/

/-- A payload of 256 bytes does not fit `PUT`'s length byte (R72). -/
theorem test_wellFormed_refuses_long_put : (Instr.hostPut (List.replicate 256 0x01#8)).wellFormed = false := by
  simp only [Instr.wellFormed, List.length_replicate]; decide

/-- A payload of 255 bytes does. -/
theorem test_wellFormed_admits_longest_put : (Instr.hostPut (List.replicate 255 0x01#8)).wellFormed = true := by
  simp only [Instr.wellFormed, List.length_replicate]; decide

/-! ### Decoding, every row of R74 -/

theorem test_decode_begin : decode (.host [0x01#8]) = some .hostBegin := by decide
theorem test_decode_put : decode (.host [0x02#8, 0x02#8, 0x41#8, 0x42#8]) = some (.hostPut [0x41#8, 0x42#8]) := by decide
theorem test_decode_put_empty : decode (.host [0x02#8, 0x00#8]) = some (.hostPut []) := by decide
theorem test_decode_rdy : decode (.host [0x03#8]) = some .hostRdy := by decide
theorem test_decode_get : decode (.host [0x04#8]) = some .hostGet := by decide
theorem test_decode_status : decode (.host [0x05#8]) = some .hostStatus := by decide
theorem test_decode_notinit : decode (.tick 0b0000#4) = some .tickNotinit := by decide
theorem test_decode_ready : decode (.tick 0b0001#4) = some .tickReady := by decide
theorem test_decode_rxStart : decode (.tick 0b0010#4) = some .tickRxStart := by decide
theorem test_decode_rxChar : decode (.tick 0b0011#4) = some .tickRxChar := by decide
theorem test_decode_rxAck : decode (.tick 0b0100#4) = some .tickRxAck := by decide
theorem test_decode_rxChecksum : decode (.tick 0b0101#4) = some .tickRxChecksum := by decide
theorem test_decode_rxAbort : decode (.tick 0b0110#4) = some .tickRxAbort := by decide
theorem test_decode_rxErr : decode (.tick 0b0111#4) = some .tickRxErr := by decide
theorem test_decode_rxDone : decode (.tick 0b1000#4) = some .tickRxDone := by decide
theorem test_decode_txStart : decode (.tick 0b1001#4) = some .tickTxStart := by decide
theorem test_decode_txChar : decode (.tick 0b1010#4) = some .tickTxChar := by decide
theorem test_decode_txEnd : decode (.tick 0b1011#4) = some .tickTxEnd := by decide
theorem test_decode_txAck : decode (.tick 0b1100#4) = some .tickTxAck := by decide
theorem test_decode_txErr : decode (.tick 0b1101#4) = some .tickTxErr := by decide
theorem test_decode_txDone : decode (.tick 0b1110#4) = some .tickTxDone := by decide

/-- Reserved codes, a `PUT` string one byte short and one byte long, and state code 15 (R72, R75, R77). -/
theorem test_decode_refuses :
    decode (.host [0x00#8]) = none ∧ decode (.host [0x06#8]) = none ∧ decode (.host [0xFF#8]) = none ∧
    decode (.host [0x02#8]) = none ∧ decode (.host [0x02#8, 0x02#8, 0x41#8]) = none ∧
    decode (.host [0x02#8, 0x00#8, 0x41#8]) = none ∧ decode (.tick 0b1111#4) = none := by decide

/-- Table words: `PUT []` and `PUT [0]` from their bits, a state code, the shared words 1 to 5 as commands (log entry 11). -/
theorem test_table_words :
    decodeTableWord 8 0x01 = some .hostBegin ∧ decodeTableWord 16 0x0002 = some (.hostPut []) ∧
    decodeTableWord 16 0x0102 = some (.hostPut [0x00#8]) ∧ decodeTableWord 8 0x0E = some .tickTxDone ∧
    decodeTableWord 4 0x1 = some .tickReady := by decide

/-! ### States for the tests -/

/-- A channel right after `BEGIN`, `CAP = 8`. -/
def idleChan : Channel := (Channel.powerOn resetConfigA).begun

/-- The begun channel at the other end of the wires, driving `rx` and `en`. -/
def driver (rx en : Level) : Channel := { (Channel.powerOn resetConfigB).begun with txOut := rx, txEn := en }

/-- A link whose channel 0 is `ch` and samples `rx` and `en`. -/
def onLine (ch : Channel) (rx en : Level) : State := { State.reset with chans := [ch, driver rx en] }

/-- The begun channel in state `q` at `tis`. -/
def inState (q : StateCode) (tis : Nat) : Channel := { idleChan with state := q, tis := tis }

/-- The begun channel sending frame VF2 (`[0x41, 0x41]`), in state `q` at `tis` and `cursor`. -/
def sending (q : StateCode) (tis cursor : Nat) : Channel :=
  { idleChan with state := q, tis := tis, txReady := true, txInProgress := true, txBuf := [(0, 0x41#8), (1, 0x41#8)],
                  txLen := 2#8, txCursor := cursor }

/-- Whether a step leaves its channel as `f` should see it, with the given response and event. -/
def sees {α : Type} [DecidableEq α] (o : Host.Outcome State Fault Refusal) (f : Channel → α) (a : α)
    (r : Option Response) (l : Option Label) : Bool :=
  match o with
  | .next t => match t.self with
    | some ch => decide (f ch = a) && decide (t.out.resp = r) && decide (t.out.label = l)
    | none => false
  | .fault _ => false
  | .refused _ => false

/-- State code, `tis` and outputs. -/
structure Face where
  code : StateCode
  tis : Nat
  out : Level
  en : Level
deriving DecidableEq

def face (ch : Channel) : Face := { code := ch.state, tis := ch.tis, out := ch.txOut, en := ch.txEn }

/-! ### Tick vectors (95_test_vectors.md section 3) -/

theorem test_VC1 : sees (exec .tickNotinit (onLine (Channel.powerOn resetConfigA) true true)) (fun ch => (face ch, ch.driven))
    (⟨0#4, 0, false, false⟩, false) none none = true := by decide
theorem test_VC4 : sees (exec .tickReady (onLine { sending 1#4 0 0 with txInProgress := false } false false))
    (fun ch => (face ch, ch.txInProgress, ch.txCursor))
    (⟨9#4, 0, true, true⟩, true, 0) none none = true := by decide
theorem test_VC5 : sees (exec .tickReady (onLine { sending 1#4 0 0 with txInProgress := false } true true))
    (fun ch => (face ch, ch.txReady))
    (⟨2#4, 0, true, false⟩, true) none none = true := by decide
theorem test_VR4 : sees (exec .tickRxStart (onLine (inState 2#4 3) true true)) face
    ⟨3#4, 0, true, false⟩ none none = true := by decide
theorem test_VR5 : sees (exec .tickRxStart (onLine (inState 2#4 1) false true)) face
    ⟨6#4, 0, false, false⟩ none (some (.syncRx 2#4 1 .sym)) = true := by decide
theorem test_VR8 : sees (exec .tickRxChar (onLine { inState 3#4 7 with rxShift := 0x41#8 } false true))
    (fun ch => (face ch, ch.rxLen, ch.rxShift, ch.rxBuf.readRange 2))
    (⟨3#4, 8, true, false⟩, 1#8, 0x00#8, [0x41#8, 0x00#8]) none none = true := by decide
theorem test_VR9 : sees (exec .tickRxChar (onLine { inState 3#4 63 with rxLen := 7#8, rxShift := 0x7F#8 } true true))
    (fun ch => (face ch, ch.rxLen, ch.rxShift))
    (⟨6#4, 0, false, false⟩, 7#8, 0x7F#8) none (some (.overflow 7#8)) = true := by decide
theorem test_VR16 : sees (exec .tickRxAck (onLine (inState 4#4 2) false false)) face
    ⟨5#4, 0, false, false⟩ none none = true := by decide
theorem test_VR18 : sees (exec .tickRxAck (onLine (inState 4#4 1) true true)) face
    ⟨6#4, 0, false, false⟩ none (some (.syncRx 4#4 1 .en)) = true := by decide
theorem test_VR20 : sees (exec .tickRxChecksum (onLine { inState 5#4 0 with
      rxLen := 3#8, rxBuf := [(0, 0x01#8), (1, 0x02#8), (2, 0x03#8)] } false false))
    (fun ch => (face ch, ch.rxLen, ch.rxBuf.readRange 3))
    (⟨8#4, 0, false, false⟩, 2#8, [0x01#8, 0x02#8, 0x00#8]) none none = true := by decide
theorem test_VR21 : sees (exec .tickRxChecksum (onLine { inState 5#4 0 with
      rxLen := 3#8, rxBuf := [(0, 0x01#8), (1, 0x02#8), (2, 0x04#8)] } false false))
    (fun ch => (face ch, ch.rxLen))
    (⟨7#4, 0, false, false⟩, 3#8) none (some (.checksum 0x03#8 0x04#8)) = true := by decide
theorem test_VR25 : sees (exec .tickRxAbort (onLine { inState 6#4 0 with
      rxLen := 3#8, rxShift := 0x05#8, rxBuf := [(0, 0x11#8)] } true true))
    (fun ch => (face ch, ch.rxLen, ch.rxBuf.read 0, ch.rxShift, ch.txInProgress))
    (⟨1#4, 0, false, false⟩, 0#8, 0x00#8, 0x00#8, false) none none = true := by decide
theorem test_VR26 : sees (exec .tickRxErr (onLine { inState 7#4 0 with rxLen := 3#8, rxBuf := [(0, 0x11#8)] } false false))
    (fun ch => (face ch, ch.rxLen, ch.rxBuf.read 0))
    (⟨1#4, 0, false, false⟩, 0#8, 0x00#8) none none = true := by decide
theorem test_VR27 : sees (exec .tickRxDone (onLine { inState 8#4 5 with rxLen := 2#8 } false false)) face
    ⟨8#4, 6, false, false⟩ none none = true := by decide
theorem test_VR28 : sees (exec .tickRxDone (onLine (inState 8#4 5) false true)) face
    ⟨8#4, 6, false, false⟩ none none = true := by decide
theorem test_VT5 : sees (exec .tickTxStart (onLine (sending 9#4 4 0) true false)) (fun ch => (face ch, ch.txCursor))
    (⟨10#4, 0, true, true⟩, 1) none none = true := by decide
theorem test_VT6 : sees (exec .tickTxStart (onLine (sending 9#4 2 0) false false))
    (fun ch => (face ch, ch.txCursor, ch.txInProgress, ch.txReady))
    (⟨1#4, 0, false, false⟩, 0, false, true) none (some (.syncTx 9#4 2 .sym)) = true := by decide
theorem test_VT10 : sees (exec .tickTxChar (onLine (sending 10#4 14 15) true false)) (fun ch => (face ch, ch.txCursor))
    (⟨11#4, 0, false, true⟩, 16) none none = true := by decide
theorem test_VT11 : sees (exec .tickTxChar (onLine (sending 10#4 3 4) false false))
    (fun ch => (face ch, ch.txCursor, ch.txInProgress))
    (⟨13#4, 0, false, false⟩, 4, true) none (some (.syncTx 10#4 4 .listen)) = true := by decide
theorem test_VT13 : sees (exec .tickTxEnd (onLine (sending 11#4 0 16) true false)) face
    ⟨12#4, 0, true, false⟩ none none = true := by decide
theorem test_VT17 : sees (exec .tickTxAck (onLine (sending 12#4 3 16) false false)) face
    ⟨14#4, 0, false, false⟩ none none = true := by decide
theorem test_VT19 : sees (exec .tickTxAck (onLine (sending 12#4 1 16) false true)) face
    ⟨13#4, 0, false, false⟩ none (some (.collision 12#4 1)) = true := by decide
theorem test_VT20 : sees (exec .tickTxErr (onLine (sending 13#4 0 16) false false))
    (fun ch => (face ch, ch.txCursor, ch.txInProgress, ch.txReady, ch.txLen))
    (⟨1#4, 0, false, false⟩, 0, false, true, 2#8) none none = true := by decide
theorem test_VT21 : sees (exec .tickTxDone (onLine (sending 14#4 0 16) false false))
    (fun ch => (face ch, ch.txLen, ch.txCursor, ch.txReady, ch.txInProgress))
    (⟨1#4, 0, false, false⟩, 0#8, 0, false, false) none none = true := by decide

/-! ### Command vectors (95_test_vectors.md section 4) -/

theorem test_VH1 : sees (deliver State.reset (.host 0 [0x02#8, 0x01#8, 0x41#8])) id
    (Channel.powerOn resetConfigA) (some .rejUninit) (some (.misuse .put)) = true := by decide
theorem test_VH5 : sees (deliver State.reset (.host 0 [0x01#8])) (fun ch => (ch.state, ch.initialized, ch.statusWord))
    (1#4, true, 0x0011#16) (some .ok) none = true := by decide
theorem test_VH6 : sees (deliver (onLine idleChan false false) (.host 0 [0x01#8])) id
    idleChan (some .already) (some .reinit) = true := by decide
theorem test_VH9 : sees (deliver (onLine { inState 8#4 0 with rxLen := 1#8, rxBuf := [(0, 0x41#8)] } false false)
      (.host 0 [0x04#8])) (fun ch => (ch.rxLen, ch.rxBuf.read 0))
    (0#8, 0x41#8) (some (.message [0x41#8])) none = true := by decide
theorem test_VH10 : sees (deliverAll [.host 0 [0x02#8, 6#8, 1#8, 2#8, 3#8, 4#8, 5#8, 6#8], .commit 0] (onLine idleChan false false))
    (fun ch => (ch.txBuf.readRange 7, ch.txLen, ch.txReady))
    ([1#8, 2#8, 3#8, 4#8, 5#8, 6#8, 7#8], 7#8, true) (some .putTrue) none = true := by decide
theorem test_VH12 : sees (deliverAll [.host 0 [0x02#8, 0x01#8, 0x03#8], .commit 0] (onLine (sending 10#4 4 5) true false))
    (fun ch => (ch.putPending, ch.txReady, ch.statusWord.getLsbD 7))
    (some [0x03#8], false, true) none none = true := by decide
theorem test_VH13 : sees (deliver (onLine { inState 8#4 0 with rxLen := 1#8 } false false) (.host 0 [0x03#8])) face
    ⟨8#4, 0, false, false⟩ (some (.readyIs true)) none = true := by decide
theorem test_VH14 : sees (deliver (onLine { inState 8#4 0 with rxLen := 1#8 } false false) (.host 0 [0x05#8])) face
    ⟨8#4, 0, false, false⟩ (some (.statusIs 0x0118#16)) none = true ∧
    (Response.statusIs 0x0118#16).bytes = [0x18#8, 0x01#8] := by decide

/-! ### Framing vectors (95_test_vectors.md section 2) -/

theorem test_VF3 : frame [0x01#8, 0x02#8] = [0x01#8, 0x02#8, 0x03#8] := by decide
theorem test_VF2_bits : (List.range 16).map (sending 10#4 0 1).txBit =
    [true, false, false, false, false, false, true, false, true, false, false, false, false, false, true, false] := by decide

/-! ### The step runs a presented word -/

/-- A table word presented at reset is the next instruction the step runs: `BEGIN` answers `OK`; state code 14 returns to
`READY`. -/
theorem test_withFetchWord :
    sees (step (State.reset.withFetchWord 8 0x01)) (·.state)
    1#4 (some .ok) none = true ∧
    sees (step (State.reset.withFetchWord 8 0x0E)) (·.state)
    1#4 none none = true := by decide

/-! ### Witnesses: hypotheses met together -/

theorem witness_DecodeOfEncodeIsIdentity : (Instr.hostPut [0x41#8]).wellFormed = true := by decide

theorem witness_EncodeOfDecodeIsIdentity : decode (.host [0x02#8, 0x01#8, 0x41#8]) = some (.hostPut [0x41#8]) := by decide

/-- Each clause at its boundaries: 0x00, 0x06, 0xFF; a `PUT` string without its length byte, one byte short, one long. -/
theorem witness_ReservedAndMalformedCommandsAreRefused :
    State.reset.chans[0]? = some (Channel.powerOn resetConfigA) ∧
    refusedString [0x00#8] ∧ refusedString [0x06#8] ∧ refusedString [0xFF#8, 0x01#8] ∧
    refusedString [0x02#8] ∧ refusedString [0x02#8, 0x02#8, 0x41#8] ∧ refusedString [0x02#8, 0x00#8, 0x41#8] :=
  ⟨rfl, .inl ⟨_, _, rfl, by decide⟩, .inl ⟨_, _, rfl, by decide⟩, .inl ⟨_, _, rfl, by decide⟩,
    .inr ⟨_, rfl, by decide⟩, .inr ⟨_, rfl, by decide⟩, .inr ⟨_, rfl, by decide⟩⟩

theorem witness_StepRunsDecodedCommand :
    (State.reset.present (.host [0x01#8])).queue = .host 0 [0x01#8] :: [] ∧
    decodeHost [0x01#8] = some .hostBegin ∧ Instr.hostBegin.wellFormed = true := by decide

theorem witness_StepRunsSelectedTickRule :
    ({ onLine idleChan true true with queue := [.tick 0] } : State).queue = .tick 0 :: [] ∧
    (onLine idleChan true true).chans[0]? = some idleChan ∧ decodeTick idleChan.state = some .tickReady := by decide

/-- A state with the operands of a clause about an index or a table. -/
def meets (ch : Channel) (rx en : Level) : Prop :=
  (onLine ch rx en).self = some ch ∧ (onLine ch rx en).sampled ch = { rx := rx, en := en }

theorem meets_of (ch : Channel) (rx en : Level) (hp : ch.cfg.peer = 1) (hi : ch.inject = Injection.none) :
    meets ch rx en := by
  refine ⟨rfl, ?_⟩
  simp only [State.sampled, hi, Injection.none, State.wireLevels, State.wire, hp]
  cases rx <;> cases en <;> rfl

theorem witness_OutOfRangeAccessesFault_code :
    ({ onLine (inState 15#4 0) true true with queue := [.tick 0] } : State).queue = .tick 0 :: [] ∧
    (onLine (inState 15#4 0) true true).chans[0]? = some (inState 15#4 0) ∧ (inState 15#4 0).state = 15#4 := by decide

theorem witness_OutOfRangeAccessesFault_tables :
    (meets (inState 2#4 4) true true ∧ 4 ≤ (inState 2#4 4).tis) ∧
    (meets (inState 4#4 3) true false ∧ 3 ≤ (inState 4#4 3).tis) ∧
    (meets (inState 9#4 5) true false ∧ 5 ≤ (inState 9#4 5).tis) ∧
    (meets (inState 12#4 4) true false ∧ 4 ≤ (inState 12#4 4).tis) :=
  ⟨⟨meets_of _ _ _ rfl rfl, by decide⟩, ⟨meets_of _ _ _ rfl rfl, by decide⟩, ⟨meets_of _ _ _ rfl rfl, by decide⟩,
    ⟨meets_of _ _ _ rfl rfl, by decide⟩⟩

/-- The buffer clauses at their boundaries, `CAP = 8`. -/
theorem witness_OutOfRangeAccessesFault_buffers :
    (meets { inState 3#4 71 with rxLen := 8#8 } true true ∧ 71 % 8 = 7 ∧ 8 ≤ (8#8).toNat) ∧
    (meets { inState 5#4 0 with rxLen := 9#8 } true false ∧ 8 < (9#8).toNat) ∧
    (meets (sending 10#4 0 64) true false ∧ 8 * 8 ≤ (sending 10#4 0 64).txCursor) ∧
    (meets { inState 8#4 0 with rxLen := 9#8 } true false ∧ (inState 8#4 0).state = 8#4) ∧
    (meets { idleChan with putPending := some (List.replicate 8 0x01#8) } true false ∧ idleChan.txInProgress = false ∧
      8 ≤ (List.replicate 8 0x01#8).length) :=
  ⟨⟨meets_of _ _ _ rfl rfl, by decide⟩, ⟨meets_of _ _ _ rfl rfl, by decide⟩, ⟨meets_of _ _ _ rfl rfl, by decide⟩,
    ⟨meets_of _ _ _ rfl rfl, by decide⟩, ⟨meets_of _ _ _ rfl rfl, by decide⟩⟩

theorem witness_QueueRunsAsSteps :
    ∃ t, deliverAll [.host 0 [0x01#8], .tick 0] { onLine idleChan true true with queue := [.commit 0] } = .next t :=
  ⟨_, rfl⟩

theorem witness_FirstBeginInitializesChannel :
    State.reset.self = some (Channel.powerOn resetConfigA) ∧ (Channel.powerOn resetConfigA).initialized = false ∧
    (Channel.powerOn resetConfigA).rxBuf.wf ∧ (Channel.powerOn resetConfigA).putPending = none := by decide

theorem witness_LaterBeginChangesNothing :
    (onLine idleChan true true).self = some idleChan ∧ idleChan.initialized = true := by decide

/-- The three rejections: before `BEGIN`; one byte above `CAP - 2`; a terminator in a payload of `CAP - 2` bytes. -/
theorem witness_PutRejectionsChangeNothing :
    (State.reset.self = some (Channel.powerOn resetConfigA) ∧ (Channel.powerOn resetConfigA).initialized = false) ∧
    ((onLine idleChan true true).self = some idleChan ∧ idleChan.initialized = true ∧
      idleChan.cfg.cap.bytes - 2 < (List.replicate 7 0x01#8).length) ∧
    ((List.replicate 6 0x00#8).length ≤ idleChan.cfg.cap.bytes - 2 ∧ 0x00#8 ∈ List.replicate 6 0x00#8) := by decide

/-- A channel whose lock is held and for which a second caller waits. -/
def contested : Channel := { idleChan with putPending := some [0x03#8], waiters := [[0x04#8]] }

theorem witness_PutIssueTakesOrAwaitsLock :
    ((onLine idleChan true true).self = some idleChan ∧ idleChan.initialized = true ∧
      (List.replicate 6 0x01#8).length ≤ idleChan.cfg.cap.bytes - 2 ∧ 0x00#8 ∉ List.replicate 6 0x01#8 ∧
      idleChan.putPending = none) ∧
    ((onLine contested true true).self = some contested ∧ contested.initialized = true ∧ contested.putPending ≠ none) ∧
    (contested.waiters[0]? = some [0x04#8] ∧
      ({ contested with putPending := none } : Channel).waiters[0]? = some [0x04#8]) := by decide

theorem witness_PutCommitStagesFrame :
    ((onLine contested true true).chans[0]? = some contested ∧ contested.txInProgress = false ∧
      contested.putPending = some [0x03#8] ∧ [0x03#8].length ≤ contested.cfg.cap.bytes - 2 ∧ contested.txBuf.wf) ∧
    (sending 10#4 0 1).txInProgress = true ∧ idleChan.putPending = none := by decide

theorem witness_RdyAnswersMessageWaiting : (onLine idleChan true true).self = some idleChan := by decide

/-- `RX_DONE` with a full buffer, and another state. -/
theorem witness_GetReturnsMessageOnce :
    ((onLine { inState 8#4 0 with rxLen := 8#8 } true true).self = some { inState 8#4 0 with rxLen := 8#8 } ∧
      (inState 8#4 0).state = 8#4 ∧ (8#8).toNat ≤ idleChan.cfg.cap.bytes) ∧
    (onLine idleChan true true).self = some idleChan ∧ idleChan.state ≠ 8#4 := by decide

theorem witness_SecondGetReturnsEmpty :
    (onLine { inState 8#4 0 with rxLen := 1#8 } true true).chans[0]? = some { inState 8#4 0 with rxLen := 1#8 } ∧
    (inState 8#4 0).state = 8#4 ∧ 0 < (1#8).toNat ∧ (1#8).toNat ≤ idleChan.cfg.cap.bytes := by decide

theorem witness_StatusReturnsStatusWord : (onLine idleChan true true).self = some idleChan := by decide

theorem witness_NothingHappensBeforeBegin :
    State.reset.chans[0]? = some { Channel.powerOn resetConfigA with inject := Injection.none } ∧
    ([0x41#8] : List Byte).length ≤ 255 := by decide

theorem witness_NotinitTickWritesNothing : State.reset.self = some (Channel.powerOn resetConfigA) := by decide

theorem witness_ReadyTickRule : meets idleChan true true := meets_of _ _ _ rfl rfl

/-- Every value of `tis` the rule gives, the last included, and `en = 0` beyond it. -/
theorem witness_RxStartTickRule :
    (meets (inState 2#4 3) true true ∧ (inState 2#4 3).tis ≤ 3) ∧ meets (inState 2#4 4) true false :=
  ⟨⟨meets_of _ _ _ rfl rfl, by decide⟩, meets_of _ _ _ rfl rfl⟩

/-- The last byte that fits, and the first that does not. -/
theorem witness_RxCharDataTickRule :
    (meets { inState 3#4 55 with rxLen := 6#8 } true true ∧ (6#8).toNat < idleChan.cfg.cap.bytes) ∧
    (meets { inState 3#4 63 with rxLen := 7#8 } true true ∧ (7#8).toNat < idleChan.cfg.cap.bytes) :=
  ⟨⟨meets_of _ _ _ rfl rfl, by decide⟩, ⟨meets_of _ _ _ rfl rfl, by decide⟩⟩

theorem witness_RxCharFallTickRule : meets (inState 3#4 16) true false ∧ meets (inState 3#4 19) true false :=
  ⟨meets_of _ _ _ rfl rfl, meets_of _ _ _ rfl rfl⟩

theorem witness_CompletedByteIsStored :
    (meets { inState 3#4 55 with rxLen := 6#8 } true true ∧ idleChan.rxBuf.wf ∧ 55 % 8 = 7 ∧
      (6#8).toNat + 1 < idleChan.cfg.cap.bytes) ∧
    ∃ t ch', exec .tickRxChar (onLine { inState 3#4 55 with rxLen := 6#8 } true true) = .next t ∧ t.self = some ch' :=
  ⟨⟨meets_of _ _ _ rfl rfl, by decide⟩, _, _, rfl, rfl⟩

theorem witness_RxAckTickRule :
    (meets (inState 4#4 2) true false ∧ (inState 4#4 2).tis ≤ 2) ∧ meets (inState 4#4 3) true true :=
  ⟨⟨meets_of _ _ _ rfl rfl, by decide⟩, meets_of _ _ _ rfl rfl⟩

theorem witness_RxChecksumTickRule :
    meets { inState 5#4 0 with rxLen := 8#8 } true true ∧ (8#8).toNat ≤ idleChan.cfg.cap.bytes :=
  ⟨meets_of _ _ _ rfl rfl, by decide⟩

theorem witness_ReceiveErrorCleanUpRule : meets (inState 6#4 0) true true ∧ meets (inState 7#4 0) false false :=
  ⟨meets_of _ _ _ rfl rfl, meets_of _ _ _ rfl rfl⟩

theorem witness_RxDoneTickRule : meets (inState 8#4 5) false false := meets_of _ _ _ rfl rfl

theorem witness_TxStartTickRule :
    (meets (sending 9#4 4 0) true false ∧ (sending 9#4 4 0).tis ≤ 4) ∧ meets (sending 9#4 5 0) true true :=
  ⟨⟨meets_of _ _ _ rfl rfl, by decide⟩, meets_of _ _ _ rfl rfl⟩

theorem witness_TxCharTickRule :
    (meets (sending 10#4 0 63) true false ∧ (sending 10#4 0 63).txCursor < 8 * idleChan.cfg.cap.bytes) ∧
    meets (sending 10#4 0 64) true true :=
  ⟨⟨meets_of _ _ _ rfl rfl, by decide⟩, meets_of _ _ _ rfl rfl⟩

theorem witness_TxEndTickRule : meets (sending 11#4 0 16) true false := meets_of _ _ _ rfl rfl

theorem witness_TxAckTickRule :
    (meets (sending 12#4 3 16) false false ∧ (sending 12#4 3 16).tis ≤ 3) ∧ meets (sending 12#4 4 16) false true :=
  ⟨⟨meets_of _ _ _ rfl rfl, by decide⟩, meets_of _ _ _ rfl rfl⟩

theorem witness_TxErrTickRule : meets (sending 13#4 0 16) false false := meets_of _ _ _ rfl rfl

theorem witness_TxDoneTickRule : meets (sending 14#4 0 16) false false := meets_of _ _ _ rfl rfl

/-- Both cases: the peer drives its pins, and it does not. -/
theorem witness_SampledLevelsArePeerOutputs :
    (idleChan.inject = Injection.none ∧ (onLine idleChan true true).chans[idleChan.cfg.peer]? = some (driver true true) ∧
      (driver true true).driven = true) ∧
    (State.reset.chans[idleChan.cfg.peer]? = some (Channel.powerOn resetConfigB) ∧
      (Channel.powerOn resetConfigB).driven = false) := by decide

theorem witness_FlipInvertsOneSample :
    ((onLine idleChan true true).chans[0]? = some idleChan ∧ idleChan.inject = Injection.none) ∧
    ∃ t cht, deliver (onLine idleChan true true) (.tick 0) = .next t ∧ t.chans[0]? = some cht :=
  ⟨by decide, _, _, rfl, rfl⟩

/-- Two sources, a registration due on each. -/
theorem witness_DueTicksFollowRegistrationOrder :
    (1 < ({ State.reset with due := [⟨0, 0⟩, ⟨1, 1⟩] } : State).nTimers) ∧
    ([⟨0, 0⟩, ⟨1, 1⟩] : List Registration) = [⟨0, 0⟩] ++ ⟨1, 1⟩ :: [] ∧ (⟨1, 1⟩ : Registration).timer = 1 ∧
    ∀ x ∈ ([⟨0, 0⟩] : List Registration), x.timer ≠ 1 := by decide

/-- Whether an instruction changes what `f` sees of its channel. -/
def changes {α : Type} [DecidableEq α] (i : Instr) (ch : Channel) (rx en : Level) (f : Channel → α) : Bool :=
  match exec i (onLine ch rx en) with
  | .next t => match t.self with
    | some ch' => decide (f ch' ≠ f ch)
    | none => false
  | .fault _ => false
  | .refused _ => false

/-- Each field's clause has a step that changes it. -/
theorem witness_FieldsChangeOnlyByTheirWriters :
    changes .hostBegin (Channel.powerOn resetConfigA) true true (·.initialized) = true ∧
    changes .hostBegin (Channel.powerOn resetConfigA) true true (·.driven) = true ∧
    changes .tickReady idleChan true true (·.state) = true ∧
    changes .tickTxDone (sending 14#4 0 16) true true (·.txReady) = true ∧
    changes .tickTxErr (sending 13#4 0 16) true true (·.txInProgress) = true ∧
    changes .hostGet { inState 8#4 0 with rxLen := 1#8 } true true (·.rxLen) = true ∧
    changes .tickRxChar (inState 3#4 0) true true (·.rxShift) = true ∧
    changes .tickTxDone (sending 14#4 0 16) true true (·.txLen) = true ∧
    changes .tickTxChar (sending 10#4 0 1) true false (·.txCursor) = true ∧
    changes .tickReady idleChan false false (·.tis) = true ∧
    changes (.hostPut [0x01#8]) idleChan true true (·.putPending) = true ∧
    changes .tickReady { idleChan with inject := { Injection.none with flipRx := true } } true true (·.inject) = true := by
  decide

/-- A storing step and the bytes it stores. -/
theorem witness_UnstoredBytesReadAsBefore :
    changes .tickRxChar (inState 3#4 7) true true (·.rxBuf) = true ∧
    storedRx .tickRxChar { rx := true, en := true } (inState 3#4 7) = [0, 1] := by decide

theorem witness_StepsTouchOnlyTheirOwnChannel :
    ∃ t, deliver (onLine idleChan true true) (.tick 0) = .next t ∧ 1 ≠ t.active := ⟨_, rfl, by decide⟩

theorem witness_InstructionsKeepTheSystem :
    ∃ t, exec .hostBegin State.reset = .next t ∧ t.registry ≠ State.reset.registry := ⟨_, rfl, by decide⟩

/-- Two different systems that agree on the channel and its wires. -/
theorem witness_ChannelsInteractOnlyThroughWires :
    (onLine idleChan true true).self = some idleChan ∧
    ({ onLine idleChan true true with chans := [idleChan, { driver true true with tis := 9 }] } : State).self =
      some idleChan ∧
    (({ onLine idleChan true true with chans := [idleChan, { driver true true with tis := 9 }] } : State).chans[
        idleChan.cfg.peer]?).map (fun p => (p.driven, p.txOut, p.txEn)) =
      ((onLine idleChan true true).chans[idleChan.cfg.peer]?).map (fun p => (p.driven, p.txOut, p.txEn)) ∧
    ∃ t, exec .tickReady (onLine idleChan true true) = .next t := ⟨by decide, by decide, by decide, _, rfl⟩

theorem witness_OnlyCommitWritesTxBuffer :
    ∃ t ch', deliver (onLine contested true true) (.commit 0) = .next t ∧
      (onLine contested true true).chans[0]? = some contested ∧ t.chans[0]? = some ch' ∧ ch'.txBuf ≠ contested.txBuf :=
  ⟨_, _, rfl, rfl, rfl, by decide⟩

/-- A channel that leaves `NOTINIT`, and one that has left it. -/
theorem witness_OnlyFirstBeginLeavesNotinit :
    (∃ t ch', deliver State.reset (.host 0 [0x01#8]) = .next t ∧
      State.reset.chans[0]? = some (Channel.powerOn resetConfigA) ∧ t.chans[0]? = some ch' ∧
      (Channel.powerOn resetConfigA).state = 0#4 ∧ ch'.state ≠ 0#4) ∧
    ∃ t ch', deliver (onLine idleChan true true) (.tick 0) = .next t ∧
      (onLine idleChan true true).chans[0]? = some idleChan ∧ t.chans[0]? = some ch' ∧ idleChan.state ≠ 0#4 ∧
      idleChan.initialized = true :=
  ⟨⟨_, _, rfl, rfl, rfl, by decide, by decide⟩, _, _, rfl, rfl, rfl, by decide, by decide⟩

/-- `GET` changes `rx_len`; with `rx_len = 0` a tick step changes the state. -/
theorem witness_WaitingMessageIsKeptUntilGet :
    (∃ t ch', deliver (onLine { inState 8#4 0 with rxLen := 1#8 } false false) (.host 0 [0x04#8]) = .next t ∧
      t.chans[0]? = some ch' ∧ (inState 8#4 0).state = 8#4 ∧ (inState 8#4 0).initialized = true ∧ ch'.rxLen ≠ 1#8) ∧
    ∃ t ch', deliver (onLine (inState 8#4 0) false false) (.tick 0) = .next t ∧ t.chans[0]? = some ch' ∧
      ch'.state ≠ 8#4 :=
  ⟨⟨_, _, rfl, rfl, by decide, by decide, by decide⟩, _, _, rfl, rfl, by decide⟩

/-! #### Invariants, met by a state in the middle of a transmission -/

/-- A link whose channel 0 is sending its last frame bit but one and whose channel 1 has a caller waiting. -/
def busy : State :=
  { onLine { sending 10#4 13 14 with txEn := true } true false with
      chans := [{ sending 10#4 13 14 with txEn := true }, { contested with cfg := resetConfigB }], nTimers := 2,
      registry := [⟨0, 0⟩, ⟨1, 1⟩], queue := [.tick 0] }

theorem busy_control : busy.AllChannels Channel.ControlOk := by
  intro ch h
  simp only [busy, List.mem_cons, List.not_mem_nil, or_false] at h
  rcases h with rfl | rfl <;> exact ⟨by decide, by decide, by decide, by decide, by decide, by decide⟩

theorem payload_ok_contested (d : List Byte) (h : d = [0x03#8] ∨ d = [0x04#8]) :
    PayloadOk { contested with cfg := resetConfigB } d := by
  rcases h with rfl | rfl <;> exact ⟨by decide, by decide⟩

theorem busy_cursors : busy.AllChannels Channel.CursorsOk := by
  intro ch h
  simp only [busy, List.mem_cons, List.not_mem_nil, or_false] at h
  rcases h with rfl | rfl
  · exact ⟨by decide, by decide, by decide, by decide, by decide, by decide, by decide, by decide, by decide,
      by decide, by decide, by decide, by decide, by decide, fun d hd => (by cases hd), fun d hd => (by cases hd),
      by decide⟩
  · refine ⟨by decide, by decide, by decide, by decide, by decide, by decide, by decide, by decide, by decide,
      by decide, by decide, by decide, by decide, by decide, fun d hd => ⟨payload_ok_contested d (.inl ?_), rfl⟩,
      fun d hd => payload_ok_contested d (.inr ?_), by decide⟩
    · exact (Option.some.inj hd).symm
    · simpa [contested] using hd

theorem busy_buffers : busy.AllChannels Channel.BuffersOk := by
  intro ch h
  simp only [busy, List.mem_cons, List.not_mem_nil, or_false] at h
  rcases h with rfl | rfl <;> exact ⟨by decide, by decide, by decide, by decide⟩

theorem busy_framing : busy.AllChannels Channel.FramingOk := by
  intro ch h
  simp only [busy, List.mem_cons, List.not_mem_nil, or_false] at h
  rcases h with rfl | rfl
  · refine ⟨by decide, by decide, fun i hi => ?_⟩
    have h2 : i + 1 < 2 := hi
    obtain rfl : i = 0 := by omega
    decide
  · refine ⟨by decide, by decide, fun i hi => ?_⟩
    have h2 : i + 1 < 0 := hi
    omega

theorem busy_registry : busy.RegistryOk := by
  refine ⟨by decide, ?_, ?_⟩
  · intro r hr
    simp only [busy, List.mem_cons, List.not_mem_nil, or_false] at hr
    rcases hr with rfl | rfl <;> exact ⟨_, rfl, by decide, by decide⟩
  · intro c ch h _
    match c, h with
    | 0, _ => decide
    | 1, _ => decide

theorem busy_steps : ∃ t, step busy = .next t := ⟨_, rfl⟩

theorem witness_StepKeepsControlInvariant :
    busy.AllChannels Channel.ControlOk ∧ ∃ t, step busy = .next t := ⟨busy_control, busy_steps⟩

theorem witness_StepKeepsCursorInvariant :
    busy.AllChannels Channel.ControlOk ∧ busy.AllChannels Channel.CursorsOk ∧ ∃ t, step busy = .next t :=
  ⟨busy_control, busy_cursors, busy_steps⟩

theorem witness_StepKeepsBuffersCanonical :
    busy.AllChannels Channel.BuffersOk ∧ ∃ t, step busy = .next t := ⟨busy_buffers, busy_steps⟩

theorem witness_StepKeepsFramingInvariant :
    busy.AllChannels Channel.ControlOk ∧ busy.AllChannels Channel.CursorsOk ∧ busy.AllChannels Channel.BuffersOk ∧
    busy.AllChannels Channel.FramingOk ∧ ∃ t, step busy = .next t :=
  ⟨busy_control, busy_cursors, busy_buffers, busy_framing, busy_steps⟩

theorem witness_StepKeepsRegistryInvariant : busy.RegistryOk ∧ ∃ t, step busy = .next t :=
  ⟨busy_registry, busy_steps⟩

theorem witness_InvariantStatesNeverFault :
    busy.AllChannels Channel.ControlOk ∧ busy.AllChannels Channel.CursorsOk := ⟨busy_control, busy_cursors⟩

theorem witness_ReachableStatesObeyStatedInvariants :
    ∃ t ch, deliverAll [.host 0 [0x01#8], .host 1 [0x01#8], .tick 0] State.reset = .next t ∧ ch ∈ t.chans ∧
      ch.state = 1#4 := ⟨_, _, rfl, List.mem_cons_self, by decide⟩

/-- A collision in each of the three sending states. -/
theorem witness_CollisionReturnsToReadyKeepingFrame :
    (meets (sending 9#4 0 0) true true ∧ (sending 9#4 0 0).state ∈ [9#4, 10#4, 12#4]) ∧
    (meets (sending 10#4 0 1) true true ∧ (sending 10#4 0 1).state ∈ [9#4, 10#4, 12#4]) ∧
    (meets (sending 12#4 0 16) true true ∧ (sending 12#4 0 16).state ∈ [9#4, 10#4, 12#4]) :=
  ⟨⟨meets_of _ _ _ rfl rfl, by decide⟩, ⟨meets_of _ _ _ rfl rfl, by decide⟩, ⟨meets_of _ _ _ rfl rfl, by decide⟩⟩

/-- A transmission and exactly `8L + 10` tick events, `L = 2`. -/
theorem witness_TransmissionEndsWithinBound :
    busy.chans[0]? = some { sending 10#4 13 14 with txEn := true } ∧
    Channel.ControlOk { sending 10#4 13 14 with txEn := true } ∧
    Channel.CursorsOk { sending 10#4 13 14 with txEn := true } ∧
    (sending 10#4 13 14).txInProgress = true ∧
    8 * (sending 10#4 13 14).txLen.toNat + 10 ≤ (List.replicate 26 (Event.tick 0)).count (.tick 0) ∧
    ∃ t, deliverAll (List.replicate 26 (.tick 0)) busy = .next t :=
  ⟨rfl, busy_control _ List.mem_cons_self, busy_cursors _ List.mem_cons_self, by decide, by decide, _, rfl⟩

/-- Vector VF7: frame VF4 with one bit flipped. -/
theorem witness_OddBitFlipsAreRejected :
    meets { inState 5#4 0 with rxLen := 3#8, rxBuf := [(0, 0x49#8), (1, 0x42#8), (2, 0x03#8)] } true true ∧
    ([0x41#8, 0x42#8, 0x03#8] : List Byte).length = ([0x08#8, 0x00#8, 0x00#8] : List Byte).length ∧
    xorFold [0x41#8, 0x42#8, 0x03#8] = 0x00#8 ∧ flips [0x08#8, 0x00#8, 0x00#8] % 2 = 1 ∧
    2 ≤ (3#8).toNat ∧ (3#8).toNat ≤ idleChan.cfg.cap.bytes ∧
    Memory.readRange [(0, 0x49#8), (1, 0x42#8), (2, 0x03#8)] (3#8).toNat =
      List.zipWith (· ^^^ ·) [0x41#8, 0x42#8, 0x03#8] [0x08#8, 0x00#8, 0x00#8] :=
  ⟨meets_of _ _ _ rfl rfl, by decide, by decide, by decide, by decide, by decide, by decide⟩

/-- An idle link with frame VF2's payload staged on channel 0. -/
def stagedLink : State := onLine (idleChan.stage [0x41#8]) false false

theorem stagedLink_idle : IdleLink stagedLink 0 1 (idleChan.stage [0x41#8]) (driver false false) :=
  ⟨rfl, rfl, by decide, by decide, by decide, by decide, by decide, by decide⟩

theorem witness_LockstepSamplingDeliversNothing :
    IdleLink stagedLink 0 1 (idleChan.stage [0x41#8]) (driver false false) ∧
    (idleChan.stage [0x41#8]).txReady = true ∧ (driver false false).txReady = false :=
  ⟨stagedLink_idle, by decide, by decide⟩

theorem witness_SecondToTickReceives :
    IdleLink stagedLink 0 1 (idleChan.stage [0x41#8]) (driver false false) ∧
    (idleChan.stage [0x41#8]).txReady = true := ⟨stagedLink_idle, by decide⟩

theorem witness_RoundTripDeliversPayload :
    IdleLink stagedLink 0 1 (idleChan.stage [0x41#8]) (driver false false) ∧ 1 ≤ ([0x41#8] : List Byte).length ∧
    ([0x41#8] : List Byte).length + 2 ≤ (idleChan.stage [0x41#8]).cfg.cap.bytes ∧
    ([0x41#8] : List Byte).length + 2 ≤ (driver false false).cfg.cap.bytes ∧ 0x00#8 ∉ [0x41#8] ∧
    (idleChan.stage [0x41#8]).txReady = true ∧ (idleChan.stage [0x41#8]).txLen.toNat = 1 + 1 ∧
    (idleChan.stage [0x41#8]).txBuf.readRange 2 = frame [0x41#8] ∧ (driver false false).txReady = false ∧
    (driver false false).rxBuf.wf :=
  ⟨stagedLink_idle, by decide, by decide, by decide, by decide, by decide, by decide, by decide, by decide, by decide⟩

end Sys2Proof.Tests
end

/-! PROOFS, family 10_state: the channel's fields, their writers and their invariants (spec/10_state.md).

The first part says once what each tick rule and each instruction can leave of its channel; every statement of the family is
then a case analysis over those lists and the model's own `ChannelMove`. -/

namespace Sys2Proof.Machine

/-! ### What a tick rule can do

One constructor per way a rule can end, with what the guard and the branch conditions say there. Aborts are listed per rule
and target state; the label they raise is not followed. -/

/-- The channels that the rule of a tick operation can leave of `ch` when it samples `l` and its guard passes. -/
inductive RuleBranch (l : Lines) (ch : Channel) : Instr → Channel → Prop
  | notinit : RuleBranch l ch .tickNotinit ch
  | readyReceive (he : l.en = true) (hx : l.rx = true) :
      RuleBranch l ch .tickReady ((ch.rxClear.drive true false).goto Code.rxStart)
  | readySend (hr : ch.txReady = true) : RuleBranch l ch .tickReady
      ((({ ch with txInProgress := true, txCursor := 0 }).drive true true).goto Code.txStart)
  | readyWait : RuleBranch l ch .tickReady (ch.drive false false).stay
  | rxStartAbort (e : Label) : RuleBranch l ch .tickRxStart (ch.enterError Code.rxAbort e).1
  | rxStartLast (ht : ch.tis = 3) :
      RuleBranch l ch .tickRxStart ((ch.drive (preambleSymbol (ch.tis + 1)) false).goto Code.rxChar)
  | rxStartNext (ht : ch.tis < 3) :
      RuleBranch l ch .tickRxStart (ch.drive (preambleSymbol (ch.tis + 1)) false).stay
  | rxCharBit (ht : ch.tis % 8 < 7) : RuleBranch l ch .tickRxChar
      (({ ch with rxShift := shiftIn ch.rxShift l.rx (ch.tis % 8) }).drive true false).stay
  | rxCharByte (he : l.en = true) (ht : ch.tis % 8 = 7) (hl : ch.rxLen.toNat + 1 < ch.cfg.cap.bytes) :
      RuleBranch l ch .tickRxChar ((ch.storeByte (shiftIn ch.rxShift l.rx (ch.tis % 8))).drive true false).stay
  | rxCharFall : RuleBranch l ch .tickRxChar ((ch.drive true false).goto Code.rxAck)
  | rxCharAbort (e : Label) : RuleBranch l ch .tickRxChar (ch.enterError Code.rxAbort e).1
  | rxCharErr (e : Label) : RuleBranch l ch .tickRxChar (ch.enterError Code.rxErr e).1
  | rxAckLast (ht : ch.tis = 2) : RuleBranch l ch .tickRxAck ((ch.drive false false).goto Code.rxChecksum)
  | rxAckNext (ht : ch.tis < 2) :
      RuleBranch l ch .tickRxAck (ch.drive (postambleSymbol (ch.tis + 1)) false).stay
  | rxAckAbort (e : Label) : RuleBranch l ch .tickRxAck (ch.enterError Code.rxAbort e).1
  | rxAckErr (e : Label) : RuleBranch l ch .tickRxAck (ch.enterError Code.rxErr e).1
  | rxChecksumAccept (hn : 1 < ch.rxLen.toNat) (hc : ch.rxLen.toNat ≤ ch.cfg.cap.bytes)
      (hs : xorFold (ch.rxBuf.readRange (ch.rxLen.toNat - 1)) = ch.rxBuf.read (ch.rxLen.toNat - 1)) :
      RuleBranch l ch .tickRxChecksum ((ch.strip.drive false false).goto Code.rxDone)
  | rxChecksumErr (e : Label) : RuleBranch l ch .tickRxChecksum (ch.enterError Code.rxErr e).1
  | rxAbort : RuleBranch l ch .tickRxAbort ch.rxCleanUp
  | rxErr : RuleBranch l ch .tickRxErr ch.rxCleanUp
  | rxDoneRelease (hl : ch.rxLen = 0#8) : RuleBranch l ch .tickRxDone ((ch.drive false false).goto Code.ready)
  | rxDoneHold : RuleBranch l ch .tickRxDone (ch.drive false false).stay
  | txStartAbandon (e : Label) : RuleBranch l ch .tickTxStart (ch.abandonTx e).1
  | txStartNext (ht : ch.tis < 4) :
      RuleBranch l ch .tickTxStart (ch.drive (preambleSymbol (ch.tis + 1)) true).stay
  | txStartLast : RuleBranch l ch .tickTxStart ((({ ch with txCursor := 1 }).drive (ch.txBit 0) true).goto Code.txChar)
  | txCharAbandon (e : Label) : RuleBranch l ch .tickTxChar (ch.abandonTx e).1
  | txCharErr (e : Label) : RuleBranch l ch .tickTxChar (ch.enterError Code.txErr e).1
  | txCharLast (hc : ch.txCursor + 1 = 8 * ch.txLen.toNat) : RuleBranch l ch .tickTxChar
      ((({ ch with txCursor := ch.txCursor + 1 }).drive (ch.txBit ch.txCursor) true).goto Code.txEnd)
  | txCharNext (hc : ch.txCursor + 1 ≠ 8 * ch.txLen.toNat) : RuleBranch l ch .tickTxChar
      (({ ch with txCursor := ch.txCursor + 1 }).drive (ch.txBit ch.txCursor) true).stay
  | txEnd : RuleBranch l ch .tickTxEnd ((ch.drive true false).goto Code.txAck)
  | txAckErr (e : Label) : RuleBranch l ch .tickTxAck (ch.enterError Code.txErr e).1
  | txAckNext (ht : ch.tis < 3) :
      RuleBranch l ch .tickTxAck (ch.drive (postambleSymbol (ch.tis + 1)) false).stay
  | txAckLast : RuleBranch l ch .tickTxAck ((ch.drive false false).goto Code.txDone)
  | txErr : RuleBranch l ch .tickTxErr ch.txCleanUp
  | txDone : RuleBranch l ch .tickTxDone
      ((({ ch with txLen := 0#8, txCursor := 0, txReady := false, txInProgress := false }).drive
        false false).goto Code.ready)

variable {l : Lines} {ch ch' : Channel}

theorem readyRule_branch (l : Lines) (ch : Channel) : RuleBranch l ch .tickReady (readyRule l ch).1 := by
  unfold readyRule
  split
  next h => exact .readyReceive h.1 h.2
  next =>
    split
    next h => exact .readySend h.2
    next => exact .readyWait

theorem rxStartRule_branch (hg : rxStartGuard l ch = none) : RuleBranch l ch .tickRxStart (rxStartRule l ch).1 := by
  have hg := faultUnless_none.1 hg
  unfold rxStartRule
  split
  next => exact .rxStartAbort _
  next he =>
    have ht : ch.tis ≤ 3 := by simpa [he] using hg
    split
    next => exact .rxStartAbort _
    next =>
      split
      next h => exact .rxStartLast h
      next h => exact .rxStartNext (by omega)

theorem rxCharRule_branch (hg : rxCharGuard l ch = none) : RuleBranch l ch .tickRxChar (rxCharRule l ch).1 := by
  have hg := faultUnless_none.1 hg
  unfold rxCharRule
  split
  next he =>
    split
    next h => exact .rxCharBit h
    next h =>
      have ht : ch.tis % 8 = 7 := by omega
      have hl : ch.rxLen.toNat < ch.cfg.cap.bytes := by simpa [he, ht] using hg
      split
      next => exact .rxCharAbort _
      next hne => exact .rxCharByte he ht (by omega)
  next =>
    split
    next => exact .rxCharFall
    next => exact .rxCharErr _

theorem rxAckRule_branch (hg : rxAckGuard l ch = none) : RuleBranch l ch .tickRxAck (rxAckRule l ch).1 := by
  have hg := faultUnless_none.1 hg
  unfold rxAckRule
  split
  next => exact .rxAckAbort _
  next he =>
    have ht : ch.tis ≤ 2 := by simpa [he] using hg
    split
    next => exact .rxAckErr _
    next =>
      split
      next h => simpa [h] using RuleBranch.rxAckLast (l := l) h
      next h => exact .rxAckNext (by omega)

theorem rxChecksumRule_branch (hg : rxChecksumGuard l ch = none) :
    RuleBranch l ch .tickRxChecksum (rxChecksumRule l ch).1 := by
  have hc : ch.rxLen.toNat ≤ ch.cfg.cap.bytes := by simpa using faultUnless_none.1 hg
  unfold rxChecksumRule
  dsimp only
  split
  next => exact .rxChecksumErr _
  next hn =>
    split
    next hs => exact .rxChecksumAccept (by omega) hc hs
    next => exact .rxChecksumErr _

theorem rxDoneRule_branch (l : Lines) (ch : Channel) : RuleBranch l ch .tickRxDone (rxDoneRule l ch).1 := by
  unfold rxDoneRule
  split
  next h => exact .rxDoneRelease h.1
  next => exact .rxDoneHold

theorem txStartRule_branch (l : Lines) (ch : Channel) : RuleBranch l ch .tickTxStart (txStartRule l ch).1 := by
  unfold txStartRule
  split
  next => exact .txStartAbandon _
  next =>
    split
    next => exact .txStartAbandon _
    next =>
      split
      next h => exact .txStartNext h
      next => exact .txStartLast

theorem txCharRule_branch (l : Lines) (ch : Channel) : RuleBranch l ch .tickTxChar (txCharRule l ch).1 := by
  unfold txCharRule
  dsimp only
  split
  next => exact .txCharAbandon _
  next =>
    split
    next => exact .txCharErr _
    next =>
      split
      next h => exact .txCharLast h
      next h => exact .txCharNext h

theorem txAckRule_branch (l : Lines) (ch : Channel) : RuleBranch l ch .tickTxAck (txAckRule l ch).1 := by
  unfold txAckRule
  split
  next => exact .txAckErr _
  next =>
    split
    next => exact .txAckErr _
    next =>
      split
      next h => exact .txAckNext h
      next => exact .txAckLast

/-- A rule whose guard passes ends in one of the listed ways. -/
theorem tickRule_branch {i : Instr} {r : TickRule} (hr : tickRule i = some r) (hg : r.guard l ch = none) :
    RuleBranch l ch i (r.rule l ch).1 := by
  cases i <;> simp only [tickRule, Option.some.injEq, reduceCtorEq] at hr <;> subst hr
  case tickNotinit => exact .notinit
  case tickReady => exact readyRule_branch l ch
  case tickRxStart => exact rxStartRule_branch hg
  case tickRxChar => exact rxCharRule_branch hg
  case tickRxAck => exact rxAckRule_branch hg
  case tickRxChecksum => exact rxChecksumRule_branch hg
  case tickRxAbort => exact .rxAbort
  case tickRxErr => exact .rxErr
  case tickRxDone => exact rxDoneRule_branch l ch
  case tickTxStart => exact txStartRule_branch l ch
  case tickTxChar => exact txCharRule_branch l ch
  case tickTxEnd => exact .txEnd
  case tickTxAck => exact txAckRule_branch l ch
  case tickTxErr => exact .txErr
  case tickTxDone => exact .txDone

/-- The instruction a state code decodes to is the one encoded by it (R74, R76). -/
theorem encode_of_decodeTick {q : StateCode} {i : Instr} (h : decodeTick q = some i) : encode i = .tick q := by
  rcases decodeTick_cases h with h | h | h | h | h | h | h | h | h | h | h | h | h | h | h <;>
    obtain ⟨rfl, rfl⟩ := h <;> rfl

/-! ### What an instruction can do to its channel -/

/-- The channels an instruction can leave of `ch` when a tick step samples `l`. -/
inductive InstrMove (l : Lines) (ch : Channel) : Instr → Channel → Prop
  | same (i : Instr) : InstrMove l ch i ch
  | begin (hi : ch.initialized = false) : InstrMove l ch .hostBegin ch.begun
  | lock (d : List Byte) : InstrMove l ch (.hostPut d) (ch.takeLock d)
  | wait (d : List Byte) : InstrMove l ch (.hostPut d) { ch with waiters := ch.waiters ++ [d] }
  | get : InstrMove l ch .hostGet { ch with rxLen := 0#8 }
  | tick {i : Instr} {ch' : Channel} (h : RuleBranch l ch i ch') :
      InstrMove l ch i { ch' with inject := Injection.none }

variable {s t : State} {i : Instr}

theorem State.self_of_chans_set (hs : s.self = some ch) (hc : t.chans = s.chans.set s.active ch')
    (ha : t.active = s.active) : t.self = some ch' := by
  have hlt : s.active < s.chans.length := (List.getElem?_eq_some_iff.1 hs).1
  simp [State.self, hc, ha, hlt]

theorem execBegin_move (hs : s.self = some ch) (h : execBegin s = .next t) :
    ∃ x, InstrMove (s.sampled ch) ch .hostBegin x ∧ t.self = some x := by
  rw [execBegin, onHost_eq hs] at h
  split at h <;> cases h
  next => exact ⟨_, .same _, State.self_of_chans_set hs rfl rfl⟩
  next hi => exact ⟨_, .begin (by simpa using hi), State.self_of_chans_set hs rfl rfl⟩

theorem execPut_move {d : List Byte} (hs : s.self = some ch) (h : execPut d s = .next t) :
    ∃ x, InstrMove (s.sampled ch) ch (.hostPut d) x ∧ t.self = some x := by
  rw [execPut, onHost_eq hs] at h
  split at h
  next => cases h; exact ⟨_, .same _, State.self_of_chans_set hs rfl rfl⟩
  next =>
    split at h
    next => cases h; exact ⟨_, .same _, State.self_of_chans_set hs rfl rfl⟩
    next =>
      split at h
      next => cases h; exact ⟨_, .same _, State.self_of_chans_set hs rfl rfl⟩
      next =>
        split at h <;> cases h
        next => exact ⟨_, .lock d, State.self_of_chans_set hs rfl rfl⟩
        next => exact ⟨_, .wait d, State.self_of_chans_set hs rfl rfl⟩

theorem execGet_move (hs : s.self = some ch) (h : execGet s = .next t) :
    ∃ x, InstrMove (s.sampled ch) ch .hostGet x ∧ t.self = some x := by
  rw [execGet, onHost_eq hs] at h
  split at h
  next => cases h; exact ⟨_, .same _, State.self_of_chans_set hs rfl rfl⟩
  next =>
    split at h <;> cases h
    exact ⟨_, .get, State.self_of_chans_set hs rfl rfl⟩

theorem execTick_move {r : TickRule} (hs : s.self = some ch) (hr : tickRule i = some r) (h : exec i s = .next t) :
    ∃ x, InstrMove (s.sampled ch) ch i x ∧ t.self = some x := by
  rw [exec_of_tickRule s hr] at h
  obtain ⟨_, hs', hg, rfl⟩ := onTick_next h
  obtain rfl := Option.some.inj (hs.symm.trans hs')
  exact ⟨_, .tick (tickRule_branch hr hg), State.self_of_chans_set hs rfl rfl⟩

/-- An instruction that answers a next state leaves one of the listed channels. -/
theorem exec_move (hs : s.self = some ch) (h : exec i s = .next t) (ht : t.self = some ch') :
    InstrMove (s.sampled ch) ch i ch' := by
  suffices hx : ∃ x, InstrMove (s.sampled ch) ch i x ∧ t.self = some x by
    obtain ⟨x, hm, hx⟩ := hx
    obtain rfl := Option.some.inj (hx.symm.trans ht)
    exact hm
  cases i
  case hostBegin => exact execBegin_move hs h
  case hostPut d => exact execPut_move hs h
  case hostGet => exact execGet_move hs h
  case hostRdy | hostStatus =>
    obtain ⟨_, hs', h⟩ := onHost_next h
    obtain rfl := Option.some.inj (hs.symm.trans hs')
    cases h
    exact ⟨_, .same _, State.self_of_chans_set hs rfl rfl⟩
  all_goals exact execTick_move hs rfl h

/-! ### What an event can do to any channel -/

variable {e : Event} {c : Nat}

/-- `deliver_next` seen from one channel: a channel that the event does not act on makes the move that changes nothing. -/
theorem deliver_move (h : deliver s e = .next t) (hc : s.chans[c]? = some ch) (hc' : t.chans[c]? = some ch') :
    ChannelMove e c ch ch' := by
  rcases (deliver_next h).moves with ⟨hchans, _⟩ | ⟨x, x', hx, hm, hchans, _⟩
  · rw [hchans, hc] at hc'
    cases hc'
    exact .same
  · rw [hchans, List.getElem?_set] at hc'
    split at hc'
    next ha =>
      subst ha
      obtain rfl := Option.some.inj (hx.symm.trans hc)
      split at hc' <;> cases hc'
      exact hm
    next =>
      rw [hc] at hc'
      cases hc'
      exact .same

end Sys2Proof.Machine

/-! ### Frames: which instruction and which event writes which field -/

namespace Sys2Proof.Machine

open Sys2Proof.Claims

variable {l : Lines} {ch ch' : Channel} {i : Instr}

/-- The fields that belong to the configuration and to the host commands. -/
structure SameHostFields (ch ch' : Channel) : Prop where
  cfg : ch'.cfg = ch.cfg
  initialized : ch'.initialized = ch.initialized
  driven : ch'.driven = ch.driven
  txBuf : ch'.txBuf = ch.txBuf
  putPending : ch'.putPending = ch.putPending
  waiters : ch'.waiters = ch.waiters

theorem RuleBranch.sameHostFields (h : RuleBranch l ch i ch') : SameHostFields ch ch' := by
  cases h <;> exact ⟨rfl, rfl, rfl, rfl, rfl, rfl⟩

theorem RuleBranch.not_host (h : RuleBranch l ch i ch') :
    i ∉ [.hostBegin, .hostRdy, .hostGet, .hostStatus] ∧ isPut i = false := by
  cases h <;> simp [isPut]

theorem RuleBranch.state_writer (h : RuleBranch l ch i ch') : ch'.state ≠ ch.state →
    i ∈ [.tickReady, .tickRxStart, .tickRxChar, .tickRxAck, .tickRxChecksum, .tickRxAbort, .tickRxErr, .tickRxDone,
      .tickTxStart, .tickTxChar, .tickTxEnd, .tickTxAck, .tickTxErr, .tickTxDone] := by
  cases h <;> simp

theorem RuleBranch.txReady_writer (h : RuleBranch l ch i ch') : ch'.txReady ≠ ch.txReady → i = .tickTxDone := by
  cases h <;> simp

theorem RuleBranch.txInProgress_writer (h : RuleBranch l ch i ch') : ch'.txInProgress ≠ ch.txInProgress →
    i ∈ [.hostBegin, .tickReady, .tickTxStart, .tickTxChar, .tickTxErr, .tickTxDone, .tickRxAbort, .tickRxErr] := by
  cases h <;> simp

theorem RuleBranch.rxLen_writer (h : RuleBranch l ch i ch') : ch'.rxLen ≠ ch.rxLen →
    i ∈ [.hostBegin, .hostGet, .tickReady, .tickRxChar, .tickRxChecksum, .tickRxAbort, .tickRxErr] := by
  cases h <;> simp

theorem RuleBranch.rxShift_writer (h : RuleBranch l ch i ch') : ch'.rxShift ≠ ch.rxShift →
    i ∈ [.hostBegin, .tickReady, .tickRxChar, .tickRxAbort, .tickRxErr] := by
  cases h <;> simp

theorem RuleBranch.txLen_writer (h : RuleBranch l ch i ch') : ch'.txLen ≠ ch.txLen →
    i ∈ [.hostBegin, .tickTxDone] := by
  cases h <;> simp

theorem RuleBranch.txCursor_writer (h : RuleBranch l ch i ch') : ch'.txCursor ≠ ch.txCursor →
    i ∈ [.hostBegin, .tickReady, .tickTxStart, .tickTxChar, .tickTxErr, .tickTxDone] := by
  cases h <;> simp

theorem RuleBranch.outputs_writer (h : RuleBranch l ch i ch') :
    (ch'.txOut ≠ ch.txOut ∨ ch'.txEn ≠ ch.txEn ∨ ch'.tis ≠ ch.tis) →
      i ∉ [.hostRdy, .hostGet, .hostStatus, .tickNotinit] ∧ isPut i = false := by
  cases h <;> simp [isPut]

/-- Settles O38, by the moves of an instruction: a tick rule writes a field only where its `_writer` lemma says. -/
theorem fieldsChangeOnlyByTheirWriters : Obligations.FieldsChangeOnlyByTheirWriters := by
  intro i s t ch ch' hs h ht
  cases exec_move hs h ht with
  | same => simp
  | begin | lock | wait | get => simp [isPut]
  | tick hb =>
    have kept := hb.sameHostFields
    exact ⟨kept.cfg, fun hne => absurd kept.initialized hne, fun hne => absurd kept.driven hne,
      fun hne => .inr (hb.state_writer hne), fun hne => .inr (by simp [hb.txReady_writer hne]), hb.txInProgress_writer,
      hb.rxLen_writer, hb.rxShift_writer, hb.txLen_writer, hb.txCursor_writer, hb.outputs_writer,
      fun hne => absurd hne (by simp [kept.putPending, kept.waiters]), fun _ => hb.not_host⟩

/-- A tick rule stores to `rx_buf` only at the indices `storedRx` computes. -/
theorem RuleBranch.read_rxBuf (h : RuleBranch l ch i ch') {a : Nat} (ha : a ∉ storedRx i l ch) :
    ch'.rxBuf.read a = ch.rxBuf.read a := by
  cases h with
  | readyReceive he hx =>
    have ha : a ≠ 0 := by simpa [storedRx, he, hx] using ha
    exact Memory.read_write_of_ne _ _ ha.symm
  | rxCharByte he ht hl =>
    have hne : ch.rxLen.toNat ≠ ch.cfg.cap.bytes - 1 := by omega
    obtain ⟨h0, h1⟩ : a ≠ ch.rxLen.toNat ∧ a ≠ ch.rxLen.toNat + 1 := by simpa [storedRx, he, ht, hne] using ha
    exact (Memory.read_write_of_ne _ _ h1.symm).trans (Memory.read_write_of_ne _ _ h0.symm)
  | rxChecksumAccept hn hc hs =>
    have ha : a ≠ ch.rxLen.toNat - 1 := by simpa [storedRx, hn, hs] using ha
    exact Memory.read_write_of_ne _ _ ha.symm
  | rxAbort | rxErr =>
    have ha : a ≠ 0 := by simpa [storedRx] using ha
    exact Memory.read_write_of_ne _ _ ha.symm
  | _ => rfl

/-- Settles O39, by the moves of an instruction. -/
theorem unstoredBytesReadAsBefore : Obligations.UnstoredBytesReadAsBefore := by
  intro i s t ch ch' hs h ht
  cases exec_move hs h ht with
  | same | lock | wait | get => exact ⟨fun _ _ => rfl, fun _ => rfl⟩
  | begin hi =>
    refine ⟨fun a ha => ?_, fun _ => rfl⟩
    have ha : a ≠ 0 := by simpa [storedRx, hi] using ha
    exact Memory.read_write_of_ne _ _ ha.symm
  | tick hb => exact ⟨fun _ => hb.read_rxBuf, fun a => congrArg (Memory.read · a) hb.sameHostFields.txBuf⟩

/-- Settles O43, by the moves of an event: of all of them only the commit stages a frame. -/
theorem onlyCommitWritesTxBuffer : Obligations.OnlyCommitWritesTxBuffer := by
  intro s t e c ch ch' h hc hc' hne
  cases deliver_move h hc hc' with
  | commit d he hb hp => exact ⟨he, hb, by simp [hp]⟩
  | tick l i r hd hr hg => exact absurd (tickRule_branch hr hg).sameHostFields.txBuf hne
  | flip x => exact absurd (ch.armFlip_txBuf x) hne
  | same | begin | lock | wait | get | issue | latch => exact absurd rfl hne

theorem RuleBranch.state_ne_notinit (h : RuleBranch l ch i ch') (hn : ch.state ≠ 0#4) : ch'.state ≠ 0#4 := by
  cases h <;> simp [hn]

theorem RuleBranch.eq_of_notinit (h : RuleBranch l ch .tickNotinit ch') : ch' = ch := by
  cases h
  rfl

/-- Settles O44, by the moves of an event: the rules keep `initialized` and never go to `NOTINIT`, whose own rule is
`skip`. -/
theorem onlyFirstBeginLeavesNotinit : Obligations.OnlyFirstBeginLeavesNotinit := by
  intro s t e c ch ch' h hc hc'
  cases deliver_move h hc hc' with
  | begin he hi => exact ⟨fun _ => rfl, fun _ => by simp, fun _ _ => ⟨he, hi, rfl⟩⟩
  | tick l i r hd hr hg =>
    have hb := tickRule_branch hr hg
    refine ⟨hb.sameHostFields.initialized.trans, hb.state_ne_notinit, fun hq hne => absurd ?_ hne⟩
    rw [hq] at hd
    obtain rfl : .tickNotinit = i := Option.some.inj hd
    exact (congrArg Channel.state hb.eq_of_notinit).trans hq
  | flip x => exact ⟨by simp, by simp, fun hq hne => absurd hq (by simpa using hne)⟩
  | same | lock | wait | get | issue | commit | latch => exact ⟨id, id, fun hq hne => absurd hq hne⟩

end Sys2Proof.Machine

/-! ### The control invariant -/

namespace Sys2Proof.Machine

variable {l : Lines} {ch ch' : Channel} {i : Instr} {e : Event} {c : Nat}

/-- Past `BEGIN`, the pins are driven. -/
abbrev Channel.hasBegun (ch : Channel) : Prop := ch.initialized = true ∧ ch.driven = true

theorem Channel.ControlOk.hasBegun (h : ch.ControlOk) (hq : ch.state ≠ Code.notinit) : ch.hasBegun := by
  have hi : ch.initialized = true := by simpa using mt h.begun.2 hq
  exact ⟨hi, h.driven.trans hi⟩

/-- The busy flag, as a function of the state code. -/
theorem Channel.ControlOk.txInProgress_eq (h : ch.ControlOk) : ch.txInProgress = decide ch.transmitting := by
  rw [Bool.eq_iff_iff, decide_eq_true_iff]
  exact h.busy

/-- The control invariant of a channel that has begun. -/
theorem Channel.hasBegun.controlOk (hf : ch.hasBegun) (hq : ch.state ≠ Code.notinit ∧ ch.state ≠ Code.unused)
    (hb : ch.txInProgress = decide ch.transmitting) (he : ch.txEn = decide ch.asserting)
    (hl : ch.quiet → ch.txOut = false) : ch.ControlOk :=
  ⟨hq.2, by simpa [hf.1] using hq.1, hf.2.trans hf.1.symm, by simp [hb], by simp [he], hl⟩

/-- A tick rule, run in the state that selects it, keeps the control invariant. A rule that keeps the busy flag stays among
the `TX` states or among the others; the rules that start, abandon or end a transmission write it. -/
theorem RuleBranch.keeps_controlOk (hb : RuleBranch l ch i ch') (hi : encode i = .tick ch.state) (h : ch.ControlOk) :
    ch'.ControlOk := by
  have hf : ch.state ≠ Code.notinit → ch'.hasBegun := fun hq => by
    obtain ⟨h1, h2⟩ := h.hasBegun hq
    exact ⟨hb.sameHostFields.initialized.trans h1, hb.sameHostFields.driven.trans h2⟩
  have busy := h.txInProgress_eq
  cases hb <;> simp only [encode, Encoded.tick.injEq] at hi
  case notinit => exact h
  case readySend | rxAbort | rxErr | txStartAbandon | txCharAbandon | txErr | txDone =>
    exact (hf (by simp [← hi])).controlOk (by simp) (by simp) (by simp) (by simp)
  case readyReceive | readyWait | rxStartAbort | rxStartLast | rxStartNext | rxCharBit | rxCharByte | rxCharFall |
      rxCharAbort | rxCharErr | rxAckLast | rxAckNext | rxAckAbort | rxAckErr | rxChecksumAccept | rxChecksumErr |
      rxDoneRelease | rxDoneHold | txStartNext | txStartLast | txCharErr | txCharLast | txCharNext | txEnd | txAckErr |
      txAckNext | txAckLast =>
    exact (hf (by simp [← hi])).controlOk (by simp [← hi]) (busy.trans (by simp [← hi])) (by simp [← hi]) (by simp [← hi])

theorem Channel.armFlip_eq_inject (ch : Channel) (x : InputLine) : ∃ inj, ch.armFlip x = { ch with inject := inj } := by
  cases x <;> exact ⟨_, rfl⟩

/-- Every move keeps the control invariant. -/
theorem ChannelMove.keeps_controlOk (hm : ChannelMove e c ch ch') (h : ch.ControlOk) : ch'.ControlOk := by
  cases hm with
  | begin => exact Channel.hasBegun.controlOk ⟨rfl, rfl⟩ (by simp) (by simp) (by simp) (by simp)
  | tick l i r hd hr hg =>
    obtain ⟨h1, h2, h3, h4, h5, h6⟩ := (tickRule_branch hr hg).keeps_controlOk (encode_of_decodeTick hd) h
    exact ⟨h1, h2, h3, h4, h5, h6⟩
  | flip x =>
    obtain ⟨inj, hx⟩ := ch.armFlip_eq_inject x
    exact hx ▸ ⟨h.used, h.begun, h.driven, h.busy, h.enable, h.low⟩
  | same | lock | wait | get | issue | commit | latch => exact ⟨h.used, h.begun, h.driven, h.busy, h.enable, h.low⟩

/-- Settles O47, by the moves of an event. -/
theorem stepKeepsControlInvariant : Obligations.StepKeepsControlInvariant := fun _ _ hs h =>
  step_keeps_allChannels (fun _ _ _ _ _ hch hm => hm.keeps_controlOk hch) hs h

end Sys2Proof.Machine

/-! ### The cursor invariant -/

namespace Sys2Proof.Machine

variable {l : Lines} {ch ch' : Channel} {i : Instr} {e : Event} {c : Nat} {d : List Byte}

/-! The cursor invariant falls into three parts that rest on different fields: the receiver's, the sender's and `PUT`'s. -/

/-- The receiver's part of the cursor invariant. -/
structure Channel.RxCursorsOk (ch : Channel) : Prop where
  rxIdle : ¬ ch.receiving → ch.rxLen = 0#8
  rxRoom : ch.rxLen.toNat ≤ ch.cfg.cap.bytes - 1
  rxStart : ch.state = Code.rxStart → ch.tis ≤ 3 ∧ ch.rxLen = 0#8 ∧ ch.rxShift = 0#8
  rxChar : ch.state = Code.rxChar → ch.tis / 8 = ch.rxLen.toNat ∧ ch.rxShift.toNat < 2 ^ (ch.tis % 8)
  rxAck : ch.state = Code.rxAck → ch.tis ≤ 2

/-- The sender's part. -/
structure Channel.TxCursorsOk (ch : Channel) : Prop where
  txIdle : ¬ ch.transmitting → ch.txCursor = 0
  txRoom : ch.txLen.toNat ≤ ch.cfg.cap.bytes - 1
  txBound : ch.txCursor ≤ 8 * ch.txLen.toNat
  staged : ch.txReady = true → 1 ≤ ch.txLen.toNat
  sending : ch.transmitting → 1 ≤ ch.txLen.toNat
  txStart : ch.state = Code.txStart → ch.tis ≤ 4 ∧ ch.txCursor = 0
  txChar : ch.state = Code.txChar → ch.txCursor = ch.tis + 1 ∧ ch.txCursor < 8 * ch.txLen.toNat
  txAck : ch.state = Code.txAck → ch.tis ≤ 3
  txSent : ch.state ∈ [Code.txEnd, Code.txAck, Code.txDone] → ch.txCursor = 8 * ch.txLen.toNat

/-- The part about pending and waiting payloads. -/
structure Channel.PutOk (ch : Channel) : Prop where
  pending : ∀ d, ch.putPending = some d → PayloadOk ch d ∧ ch.txReady = false
  waiting : ∀ d ∈ ch.waiters, PayloadOk ch d
  fresh : ch.initialized = false → ch.putPending = none ∧ ch.waiters = []

theorem Channel.cursorsOk_iff : ch.CursorsOk ↔ ch.RxCursorsOk ∧ ch.TxCursorsOk ∧ ch.PutOk := by
  constructor
  · intro h
    exact ⟨{ h with }, { h with }, { h with }⟩
  · rintro ⟨hrx, htx, hput⟩
    exact { hrx, htx, hput with }

/-! #### The receiver -/

/-- The receiver's part depends on five fields. -/
theorem Channel.RxCursorsOk.of_eq (h : ch.RxCursorsOk) (hc : ch'.cfg = ch.cfg) (hq : ch'.state = ch.state)
    (ht : ch'.tis = ch.tis) (hl : ch'.rxLen = ch.rxLen) (hs : ch'.rxShift = ch.rxShift) : ch'.RxCursorsOk := by
  constructor <;> simp only [Channel.receiving, hc, hq, ht, hl, hs]
  exacts [h.rxIdle, h.rxRoom, h.rxStart, h.rxChar, h.rxAck]

theorem rxCursorsOk_of_not_receiving (hq : ¬ ch.receiving) (hl : ch.rxLen = 0#8) : ch.RxCursorsOk :=
  ⟨fun _ => hl, by simp [hl], fun h => absurd (by simp [h]) hq, fun h => absurd (by simp [h]) hq,
    fun h => absurd (by simp [h]) hq⟩

theorem rxCursorsOk_of_received (hq : ch.state ∈ [5#4, 6#4, 7#4, 8#4]) (hr : ch.rxLen.toNat ≤ ch.cfg.cap.bytes - 1) :
    ch.RxCursorsOk := by
  refine ⟨fun h => absurd ?_ h, hr, fun h => ?_, fun h => ?_, fun h => ?_⟩
  · exact List.mem_append_right [Code.rxStart, Code.rxChar, Code.rxAck] hq
  all_goals simp [h] at hq

theorem rxCursorsOk_of_rxStart (hq : ch.state = 2#4) (ht : ch.tis ≤ 3) (hl : ch.rxLen = 0#8) (hs : ch.rxShift = 0#8) :
    ch.RxCursorsOk :=
  ⟨fun _ => hl, by simp [hl], fun _ => ⟨ht, hl, hs⟩, by simp [hq], by simp [hq]⟩

theorem rxCursorsOk_of_rxChar (hq : ch.state = 3#4) (hr : ch.rxLen.toNat ≤ ch.cfg.cap.bytes - 1)
    (ht : ch.tis / 8 = ch.rxLen.toNat) (hs : ch.rxShift.toNat < 2 ^ (ch.tis % 8)) : ch.RxCursorsOk :=
  ⟨by simp [hq], hr, by simp [hq], fun _ => ⟨ht, hs⟩, by simp [hq]⟩

theorem rxCursorsOk_of_rxAck (hq : ch.state = 4#4) (hr : ch.rxLen.toNat ≤ ch.cfg.cap.bytes - 1) (ht : ch.tis ≤ 2) :
    ch.RxCursorsOk :=
  ⟨by simp [hq], hr, by simp [hq], by simp [hq], fun _ => ht⟩

/-- Shifting in bit `p` keeps the shift register below the next power of two. -/
theorem shiftIn_toNat_lt {shift : Byte} {p : Nat} (h : shift.toNat < 2 ^ p) (rx : Level) :
    (shiftIn shift rx p).toNat < 2 ^ (p + 1) := by
  have hlt : 2 ^ p < 2 ^ (p + 1) := Nat.pow_lt_pow_right (by decide) (by omega)
  rw [shiftIn, BitVec.toNat_or]
  refine Nat.or_lt_two_pow (h.trans hlt) ?_
  cases rx with
  | false => simp
  | true =>
    simp only [if_true, BitVec.toNat_shiftLeft, BitVec.toNat_ofNat, Nat.shiftLeft_eq]
    exact (Nat.mod_le _ _).trans_lt (by simpa using hlt)

/-- A tick rule, run in the state that selects it, keeps the receiver's part. -/
theorem RuleBranch.keeps_rxCursorsOk (hb : RuleBranch l ch i ch') (hi : encode i = .tick ch.state)
    (h : ch.RxCursorsOk) : ch'.RxCursorsOk := by
  have idle := h.rxIdle
  cases hb <;> simp only [encode, Encoded.tick.injEq] at hi
  case notinit => exact h
  case readySend | readyWait | txStartAbandon | txStartNext | txStartLast | txCharAbandon | txCharErr | txCharLast |
      txCharNext | txEnd | txAckErr | txAckNext | txAckLast | txErr | txDone =>
    exact rxCursorsOk_of_not_receiving (by simp [← hi]) (idle (by simp [← hi]))
  case rxAbort | rxErr => exact rxCursorsOk_of_not_receiving (by simp) rfl
  case rxDoneRelease hl => exact rxCursorsOk_of_not_receiving (by simp) hl
  case rxStartAbort | rxCharAbort | rxCharErr | rxAckLast | rxAckAbort | rxAckErr | rxChecksumErr | rxDoneHold =>
    exact rxCursorsOk_of_received (by simp [← hi]) h.rxRoom
  case readyReceive => exact rxCursorsOk_of_rxStart rfl (by simp) rfl rfl
  case rxStartNext ht =>
    obtain ⟨_, hl, hs⟩ := h.rxStart hi.symm
    exact rxCursorsOk_of_rxStart hi.symm (by simp only [Channel.stay_tis, Channel.drive_tis]; omega) hl hs
  case rxStartLast =>
    obtain ⟨_, hl, hs⟩ := h.rxStart hi.symm
    exact rxCursorsOk_of_rxChar rfl h.rxRoom (by simp [hl]) (by simp [hs])
  case rxCharBit ht =>
    obtain ⟨hn, hs⟩ := h.rxChar hi.symm
    have hp : (ch.tis + 1) % 8 = ch.tis % 8 + 1 := by omega
    refine rxCursorsOk_of_rxChar hi.symm h.rxRoom ?_ ?_
    · simp only [Channel.stay_tis, Channel.stay_rxLen, Channel.drive_tis, Channel.drive_rxLen]; omega
    · simpa [hp] using shiftIn_toNat_lt hs l.rx
  case rxCharByte ht hl =>
    obtain ⟨hn, _⟩ := h.rxChar hi.symm
    have hcap := ch.cfg.cap.atMost
    have hlen : (ch.rxLen + 1#8).toNat = ch.rxLen.toNat + 1 := by
      rw [BitVec.toNat_add, BitVec.toNat_ofNat]; omega
    refine rxCursorsOk_of_rxChar hi.symm ?_ ?_ (by simp)
    all_goals
      simp only [Channel.stay_cfg, Channel.drive_cfg, Channel.storeByte_cfg, Channel.stay_rxLen, Channel.drive_rxLen,
        Channel.storeByte_rxLen, Channel.stay_tis, Channel.drive_tis, Channel.storeByte_tis, hlen]
      omega
  case rxCharFall => exact rxCursorsOk_of_rxAck rfl h.rxRoom (by simp)
  case rxAckNext ht =>
    exact rxCursorsOk_of_rxAck hi.symm h.rxRoom (by simp only [Channel.stay_tis, Channel.drive_tis]; omega)
  case rxChecksumAccept hn _ _ =>
    have hlen : (ch.rxLen - 1#8).toNat = ch.rxLen.toNat - 1 := by bv_omega
    have hr := h.rxRoom
    refine rxCursorsOk_of_received (by simp) ?_
    simp only [Channel.goto_cfg, Channel.drive_cfg, Channel.strip_cfg, Channel.goto_rxLen, Channel.drive_rxLen,
      Channel.strip_rxLen, hlen]
    omega

/-! #### The sender -/

/-- The sender's part depends on five fields, and asks nothing where `tx_ready` falls. -/
theorem Channel.TxCursorsOk.of_eq (h : ch.TxCursorsOk) (hc : ch'.cfg = ch.cfg) (hq : ch'.state = ch.state)
    (ht : ch'.tis = ch.tis) (hl : ch'.txLen = ch.txLen) (hcur : ch'.txCursor = ch.txCursor)
    (hr : ch'.txReady = true → ch.txReady = true) : ch'.TxCursorsOk := by
  constructor <;> simp only [Channel.transmitting, hc, hq, ht, hl, hcur]
  exacts [h.txIdle, h.txRoom, h.txBound, h.staged ∘ hr, h.sending, h.txStart, h.txChar, h.txAck, h.txSent]

theorem txCursorsOk_of_not_transmitting (hq : ¬ ch.transmitting) (hc : ch.txCursor = 0)
    (hr : ch.txLen.toNat ≤ ch.cfg.cap.bytes - 1) (hs : ch.txReady = true → 1 ≤ ch.txLen.toNat) : ch.TxCursorsOk := by
  have hsub : [Code.txEnd, Code.txAck, Code.txDone] ⊆
      [Code.txStart, Code.txChar, Code.txEnd, Code.txAck, Code.txErr, Code.txDone] := by decide
  exact ⟨fun _ => hc, hr, by simp [hc], hs, fun h => absurd h hq, fun h => absurd (by simp [h]) hq,
    fun h => absurd (by simp [h]) hq, fun h => absurd (by simp [h]) hq, fun h => absurd (hsub h) hq⟩

/-- While a transmission is in progress a frame is staged; what else holds depends on the state. -/
theorem txCursorsOk_of_transmitting (hq : ch.transmitting) (hl : 1 ≤ ch.txLen.toNat)
    (hr : ch.txLen.toNat ≤ ch.cfg.cap.bytes - 1) (hb : ch.txCursor ≤ 8 * ch.txLen.toNat)
    (hstart : ch.state = 9#4 → ch.tis ≤ 4 ∧ ch.txCursor = 0)
    (hchar : ch.state = 10#4 → ch.txCursor = ch.tis + 1 ∧ ch.txCursor < 8 * ch.txLen.toNat)
    (hack : ch.state = 12#4 → ch.tis ≤ 3) (hsent : ch.state ∈ [11#4, 12#4, 14#4] → ch.txCursor = 8 * ch.txLen.toNat) :
    ch.TxCursorsOk :=
  ⟨fun h => absurd hq h, hr, hb, fun _ => hl, fun _ => hl, hstart, hchar, hack, hsent⟩

/-- A tick rule, run in the state that selects it, keeps the sender's part. -/
theorem RuleBranch.keeps_txCursorsOk (hb : RuleBranch l ch i ch') (hi : encode i = .tick ch.state)
    (h : ch.TxCursorsOk) : ch'.TxCursorsOk := by
  have idle := h.txIdle
  have len := h.sending
  cases hb <;> simp only [encode, Encoded.tick.injEq] at hi
  case notinit => exact h
  case readyReceive | readyWait | rxStartAbort | rxStartLast | rxStartNext | rxCharBit | rxCharByte | rxCharFall |
      rxCharAbort | rxCharErr | rxAckLast | rxAckNext | rxAckAbort | rxAckErr | rxChecksumAccept | rxChecksumErr |
      rxAbort | rxErr | rxDoneRelease | rxDoneHold =>
    exact txCursorsOk_of_not_transmitting (by simp [← hi]) (idle (by simp [← hi])) h.txRoom h.staged
  case txStartAbandon | txCharAbandon | txErr => exact txCursorsOk_of_not_transmitting (by simp) rfl h.txRoom h.staged
  case txDone => exact txCursorsOk_of_not_transmitting (by simp) rfl (by simp) (by simp)
  case readySend hr =>
    exact txCursorsOk_of_transmitting (by simp) (h.staged hr) h.txRoom (by simp) (by simp) (by simp) (by simp) (by simp)
  case txStartNext ht =>
    obtain ⟨_, hc⟩ := h.txStart hi.symm
    exact txCursorsOk_of_transmitting (by simp [← hi]) (len (by simp [← hi])) h.txRoom h.txBound
      (fun _ => ⟨ht, hc⟩) (by simp [← hi]) (by simp [← hi]) (by simp [← hi])
  case txStartLast =>
    have hl := len (by simp [← hi])
    have hlt : 1 < 8 * ch.txLen.toNat := by omega
    exact txCursorsOk_of_transmitting (by simp) hl h.txRoom hlt.le (by simp) (fun _ => ⟨rfl, hlt⟩) (by simp) (by simp)
  case txCharErr =>
    exact txCursorsOk_of_transmitting (by simp) (len (by simp [← hi])) h.txRoom h.txBound (by simp) (by simp) (by simp)
      (by simp)
  case txCharLast hc =>
    exact txCursorsOk_of_transmitting (by simp) (len (by simp [← hi])) h.txRoom hc.le (by simp) (by simp) (by simp)
      (fun _ => hc)
  case txCharNext hne =>
    obtain ⟨hc, hlt⟩ := h.txChar hi.symm
    have hlt : ch.txCursor + 1 < 8 * ch.txLen.toNat := by omega
    exact txCursorsOk_of_transmitting (by simp [← hi]) (len (by simp [← hi])) h.txRoom hlt.le (by simp [← hi])
      (fun _ => ⟨congrArg (· + 1) hc, hlt⟩) (by simp [← hi]) (by simp [← hi])
  case txEnd | txAckLast =>
    have sent := h.txSent (by simp [← hi])
    exact txCursorsOk_of_transmitting (by simp) (len (by simp [← hi])) h.txRoom h.txBound (by simp) (by simp) (by simp)
      (fun _ => sent)
  case txAckErr =>
    exact txCursorsOk_of_transmitting (by simp) (len (by simp [← hi])) h.txRoom h.txBound (by simp) (by simp) (by simp)
      (by simp)
  case txAckNext ht =>
    have sent := h.txSent (by simp [← hi])
    exact txCursorsOk_of_transmitting (by simp [← hi]) (len (by simp [← hi])) h.txRoom h.txBound (by simp [← hi])
      (by simp [← hi]) (fun _ => ht) (fun _ => sent)

/-! #### `PUT` -/

theorem PayloadOk.of_cfg_eq (h : PayloadOk ch d) (hc : ch'.cfg = ch.cfg) : PayloadOk ch' d := ⟨hc ▸ h.short, h.noTerm⟩

/-- What leaves `PUT`'s fields alone, and sets `tx_ready` nowhere, keeps its part. -/
theorem Channel.PutOk.of_eq (h : ch.PutOk) (hc : ch'.cfg = ch.cfg) (hi : ch'.initialized = ch.initialized)
    (hp : ch'.putPending = ch.putPending) (hw : ch'.waiters = ch.waiters)
    (hr : ch.txReady = false → ch'.txReady = false) : ch'.PutOk := by
  refine ⟨fun d hd => ?_, fun d hd => ?_, fun h0 => ?_⟩
  · obtain ⟨hok, hnot⟩ := h.pending d (hp ▸ hd)
    exact ⟨hok.of_cfg_eq hc, hr hnot⟩
  · exact (h.waiting d (hw ▸ hd)).of_cfg_eq hc
  · rw [hp, hw]; exact h.fresh (hi ▸ h0)

theorem RuleBranch.keeps_putOk (hb : RuleBranch l ch i ch') (h : ch.PutOk) : ch'.PutOk := by
  have kept := hb.sameHostFields
  refine h.of_eq kept.cfg kept.initialized kept.putPending kept.waiters fun hr => ?_
  cases hb <;> simp [hr]

/-! #### Every move -/

theorem Channel.CursorsOk.withInject (h : ch.CursorsOk) (inj : Injection) :
    ({ ch with inject := inj } : Channel).CursorsOk := by
  obtain ⟨hrx, htx, hput⟩ := Channel.cursorsOk_iff.1 h
  exact Channel.cursorsOk_iff.2 ⟨hrx.of_eq rfl rfl rfl rfl rfl, htx.of_eq rfl rfl rfl rfl rfl id,
    hput.of_eq rfl rfl rfl rfl id⟩

/-- The first `BEGIN` finds no payload pending and no caller waiting, and starts every cursor at 0. -/
theorem Channel.CursorsOk.begun (h : ch.CursorsOk) (hi : ch.initialized = false) : ch.begun.CursorsOk := by
  obtain ⟨hp, hw⟩ := h.fresh hi
  exact Channel.cursorsOk_iff.2 ⟨rxCursorsOk_of_not_receiving (by simp) rfl,
    txCursorsOk_of_not_transmitting (by simp) rfl (by simp) (by simp), by simp [hp], by simp [hw], by simp⟩

/-- A payload that `PUT` accepts may take the lock of a channel that has begun. -/
theorem Channel.CursorsOk.takeLock (h : ch.CursorsOk) (hi : ch.initialized = true) (hd : PayloadOk ch d) :
    (ch.takeLock d).CursorsOk := by
  obtain ⟨hrx, htx, hput⟩ := Channel.cursorsOk_iff.1 h
  refine Channel.cursorsOk_iff.2 ⟨hrx.of_eq rfl rfl rfl rfl rfl, htx.of_eq rfl rfl rfl rfl rfl (by simp), ?_, ?_, ?_⟩
  · rintro d' ⟨⟩
    exact ⟨hd.of_cfg_eq rfl, rfl⟩
  · exact fun d' hd' => (hput.waiting d' hd').of_cfg_eq rfl
  · simp [hi]

/-- The callers waiting for a channel that has begun may be any whose payloads `PUT` accepts. -/
theorem Channel.CursorsOk.withWaiters (h : ch.CursorsOk) (hi : ch.initialized = true) {ws : List (List Byte)}
    (hws : ∀ d ∈ ws, PayloadOk ch d) : ({ ch with waiters := ws } : Channel).CursorsOk := by
  obtain ⟨hrx, htx, hput⟩ := Channel.cursorsOk_iff.1 h
  refine Channel.cursorsOk_iff.2 ⟨hrx.of_eq rfl rfl rfl rfl rfl, htx.of_eq rfl rfl rfl rfl rfl id, ?_, ?_, ?_⟩
  · exact fun d hd => ⟨(hput.pending d hd).1.of_cfg_eq rfl, (hput.pending d hd).2⟩
  · exact fun d hd => (hws d hd).of_cfg_eq rfl
  · simp [hi]

/-- `GET` empties the receive buffer of a channel in `RX_DONE`. -/
theorem Channel.CursorsOk.consume (h : ch.CursorsOk) (hq : ch.state = Code.rxDone) :
    ({ ch with rxLen := 0#8 } : Channel).CursorsOk := by
  obtain ⟨_, htx, hput⟩ := Channel.cursorsOk_iff.1 h
  exact Channel.cursorsOk_iff.2 ⟨rxCursorsOk_of_received (by simp [hq]) (by simp),
    htx.of_eq rfl rfl rfl rfl rfl id, hput.of_eq rfl rfl rfl rfl id⟩

/-- The frame of an accepted payload fits the transmit buffer. -/
theorem Channel.CursorsOk.stage (h : ch.CursorsOk) (hq : ¬ ch.transmitting) (hp : ch.putPending = some d) :
    (ch.stage d).CursorsOk := by
  obtain ⟨hrx, _, hput⟩ := Channel.cursorsOk_iff.1 h
  have hshort := (hput.pending d hp).1.short
  have hleast := ch.cfg.cap.atLeast
  have hmost := ch.cfg.cap.atMost
  have hlen : (ch.stage d).txLen.toNat = d.length + 1 := by
    rw [Channel.stage_txLen, BitVec.toNat_ofNat]
    omega
  refine Channel.cursorsOk_iff.2 ⟨hrx.of_eq rfl rfl rfl rfl rfl, ?_, by simp, ?_, ?_⟩
  · refine txCursorsOk_of_not_transmitting hq rfl ?_ (fun _ => by omega)
    rw [hlen, Channel.stage_cfg]
    omega
  · exact fun d' hd' => (hput.waiting d' hd').of_cfg_eq rfl
  · exact fun h0 => ⟨rfl, (hput.fresh h0).2⟩

/-- Every move keeps the cursor invariant of a channel whose control invariant holds. -/
theorem ChannelMove.keeps_cursorsOk (hm : ChannelMove e c ch ch') (hctl : ch.ControlOk) (h : ch.CursorsOk) :
    ch'.CursorsOk := by
  cases hm with
  | same => exact h
  | begin he hi => exact h.begun hi
  | lock d hi hl ht => exact h.takeLock hi ⟨hl, ht⟩
  | wait d hi hl ht =>
    refine h.withWaiters hi fun d' hd' => ?_
    rcases List.mem_append.1 hd' with hd' | hd'
    · exact h.waiting d' hd'
    · exact List.mem_singleton.1 hd' ▸ ⟨hl, ht⟩
  | get he hq => exact h.consume hq
  | issue k d he hp hw =>
    have hmem : d ∈ ch.waiters := List.mem_of_getElem? hw
    have hi : ch.initialized = true := by
      by_contra h0
      simp [(h.fresh (by simpa using h0)).2] at hmem
    exact (h.takeLock hi (h.waiting d hmem)).withWaiters hi fun d' hd' =>
      (h.waiting d' (List.mem_of_mem_eraseIdx hd')).of_cfg_eq rfl
  | commit d he hb hp => exact h.stage (fun ht => by simp [hctl.busy.2 ht] at hb) hp
  | flip x =>
    obtain ⟨inj, hx⟩ := ch.armFlip_eq_inject x
    exact hx ▸ h.withInject inj
  | latch => exact h.withInject _
  | tick l i r hd hr hg =>
    obtain ⟨hrx, htx, hput⟩ := Channel.cursorsOk_iff.1 h
    have hb := tickRule_branch hr hg
    have hi := encode_of_decodeTick hd
    exact (Channel.cursorsOk_iff.2
      ⟨hb.keeps_rxCursorsOk hi hrx, hb.keeps_txCursorsOk hi htx, hb.keeps_putOk hput⟩).withInject _

/-- Settles O48, by the moves of an event. -/
theorem stepKeepsCursorInvariant : Obligations.StepKeepsCursorInvariant := fun _ _ hctl hcur h =>
  step_keeps_allChannels (P := Channel.CursorsOk)
    (fun _ _ _ _ hmem hch hm => hm.keeps_cursorsOk (hctl _ hmem) hch) hcur h

end Sys2Proof.Machine

/-! ### The buffer invariant -/

namespace Sys2Proof.Machine

variable {l : Lines} {ch ch' : Channel} {i : Instr} {e : Event} {c : Nat} {m : Memory} {n : Nat}

/-- A buffer in canonical form that lists no byte at or above `n`. -/
def Memory.fits (m : Memory) (n : Nat) : Prop := m.wf ∧ ∀ x ∈ m, x.1 < n

theorem Channel.buffersOk_iff :
    ch.BuffersOk ↔ ch.rxBuf.fits ch.cfg.cap.bytes ∧ ch.txBuf.fits ch.cfg.cap.bytes :=
  ⟨fun h => ⟨⟨h.rxWf, h.rxIn⟩, h.txWf, h.txIn⟩, fun ⟨hrx, htx⟩ => ⟨hrx.1, htx.1, hrx.2, htx.2⟩⟩

theorem Memory.fits.write (h : m.fits n) {a : Nat} (ha : a < n) (b : Byte) : (m.write a b).fits n := by
  refine ⟨Memory.write_wf h.1 a b, fun x hx => ?_⟩
  rcases Memory.mem_write hx with ⟨rfl, _⟩ | hx
  · exact ha
  · exact h.2 x hx

theorem Memory.fits.writeList (h : m.fits n) {bs : List Byte} (hbs : bs.length ≤ n) : (m.writeList 0 bs).fits n := by
  refine ⟨Memory.writeList_wf h.1 0 bs, fun x hx => ?_⟩
  rcases Memory.mem_writeList hx with ⟨_, hlt⟩ | hx
  · omega
  · exact h.2 x hx

theorem Channel.cap_pos (ch : Channel) : 0 < ch.cfg.cap.bytes := by
  have := ch.cfg.cap.atLeast
  omega

/-- A tick rule stores below `CAP`: its guard and its branch conditions bound every index it computes. -/
theorem RuleBranch.rxBuf_fits (hb : RuleBranch l ch i ch') (h : ch.rxBuf.fits ch.cfg.cap.bytes) :
    ch'.rxBuf.fits ch.cfg.cap.bytes := by
  cases hb with
  | readyReceive | rxAbort | rxErr => exact h.write ch.cap_pos _
  | rxCharByte he ht hl => exact (h.write (by omega) _).write hl _
  | rxChecksumAccept hn hc => exact h.write (by omega) _
  | _ => exact h

/-- Every move keeps both buffers canonical and below `CAP`. -/
theorem ChannelMove.keeps_buffersOk (hm : ChannelMove e c ch ch') (h : ch.BuffersOk) : ch'.BuffersOk := by
  rw [Channel.buffersOk_iff] at h ⊢
  obtain ⟨hrx, htx⟩ := h
  cases hm with
  | begin => exact ⟨hrx.write ch.cap_pos _, htx⟩
  | commit d he hb hp hl => exact ⟨hrx, htx.writeList (by rw [frame_length]; exact hl)⟩
  | tick l i r hd hr hg =>
    have hb := tickRule_branch hr hg
    have kept := hb.sameHostFields
    dsimp only
    rw [kept.cfg, kept.txBuf]
    exact ⟨hb.rxBuf_fits hrx, htx⟩
  | flip x => simpa using ⟨hrx, htx⟩
  | same | lock | wait | get | issue | latch => exact ⟨hrx, htx⟩

/-- Settles O49, by the moves of an event. -/
theorem stepKeepsBuffersCanonical : Obligations.StepKeepsBuffersCanonical := fun _ _ hs h =>
  step_keeps_allChannels (fun _ _ _ _ _ hch hm => hm.keeps_buffersOk hch) hs h

end Sys2Proof.Machine

/-! ### Reachable states -/

namespace Sys2Proof.Machine

variable {s t : State} {e : Event}

/-- What every step keeps, every event delivered directly keeps: it is the step of a queue that holds it. -/
theorem deliver_keeps {P : State → Prop} (hq : ∀ u q, P u → P { u with queue := q })
    (hstep : ∀ u v, P u → step u = .next v → P v) (hs : P s) (h : deliver s e = .next t) : P t :=
  hstep { s with queue := e :: s.queue } t (hq s _ hs) h

/-- What every event keeps holds after every sequence of events. -/
theorem deliverAll_keeps {P : State → Prop} (hev : ∀ u v e, P u → deliver u e = .next v → P v)
    (es : List Event) (hs : P s) (h : deliverAll es s = .next t) : P t := by
  induction es generalizing s with
  | nil => cases h; exact hs
  | cons e es ih =>
    rw [deliverAll] at h
    split at h
    next u hu => exact ih (hev s u e hs hu) h
    next => cases h
    next => cases h

theorem Channel.powerOn_controlOk (cfg : ChanConfig) : (Channel.powerOn cfg).ControlOk := by
  constructor <;> simp [Channel.powerOn]

theorem Channel.powerOn_cursorsOk (cfg : ChanConfig) : (Channel.powerOn cfg).CursorsOk := by
  constructor <;> simp [Channel.powerOn]

/-- The control and the cursor invariant of every channel. -/
def State.Sound (s : State) : Prop := s.AllChannels Channel.ControlOk ∧ s.AllChannels Channel.CursorsOk

theorem State.sound_reset : State.reset.Sound := by
  have hpow : ∀ ch ∈ State.reset.chans, ∃ cfg, ch = Channel.powerOn cfg := by simp [State.reset]
  refine ⟨fun ch hch => ?_, fun ch hch => ?_⟩ <;> obtain ⟨cfg, rfl⟩ := hpow ch hch
  · exact Channel.powerOn_controlOk cfg
  · exact Channel.powerOn_cursorsOk cfg

theorem State.Sound.deliver (hs : s.Sound) (h : deliver s e = .next t) : t.Sound :=
  deliver_keeps (fun _ _ hu => hu)
    (fun u v hu huv => ⟨stepKeepsControlInvariant u v hu.1 huv, stepKeepsCursorInvariant u v hu.1 hu.2 huv⟩) hs h

/-- Settles O53, by induction on the events from power-on: R38 to R43 are parts of the control and the cursor invariant. -/
theorem reachableStatesObeyStatedInvariants : Obligations.ReachableStatesObeyStatedInvariants := by
  intro es t h ch hch
  obtain ⟨hctl, hcur⟩ := deliverAll_keeps (fun _ _ _ => State.Sound.deliver) es State.sound_reset h
  have ctl := hctl ch hch
  have cur := hcur ch hch
  exact ⟨ctl.begun, ctl.busy, ctl.enable, ctl.low, fun hq => ⟨cur.rxIdle (by simp [hq]), cur.txIdle (by simp [hq])⟩,
    ctl.used, cur.rxRoom, cur.txRoom, cur.txBound⟩

end Sys2Proof.Machine

/-! PROOFS, family 20_memory: the interleaving, the wires between channels, and the accesses that cannot fault
(spec/20_memory.md). -/

/-! ### Instructions and the rest of the system -/

namespace Sys2Proof.Machine

open Sys2Proof.Claims

variable {s t : State} {i : Instr}

/-- The states an instruction can answer with: a host command finishes on its channel and a first `BEGIN` also registers
it; a tick operation ends as every tick step does. -/
inductive ExecResult (s : State) : Instr → State → Prop
  | host {i : Instr} (ch : Channel) (r : Option Response) (l : Option Label) : ExecResult s i (s.finish ch r l)
  | register (ch : Channel) (r : Option Response) (timer : Nat) :
      ExecResult s .hostBegin ((s.finish ch r none).register timer)
  | tick {i : Instr} {l : Lines} {ch : Channel} {x : Channel × Option Label} (hb : RuleBranch l ch i x.1) :
      ExecResult s i (s.afterTick ch x)

theorem execBegin_result (h : execBegin s = .next t) : ExecResult s .hostBegin t := by
  obtain ⟨ch, -, h⟩ := onHost_next h
  split at h <;> cases h
  next => exact .host ch _ _
  next => exact .register ch.begun _ _

theorem execPut_result {d : List Byte} (h : execPut d s = .next t) : ExecResult s (.hostPut d) t := by
  obtain ⟨ch, -, h⟩ := onHost_next h
  split at h
  next => cases h; exact .host ch _ _
  next =>
    split at h
    next => cases h; exact .host ch _ _
    next =>
      split at h
      next => cases h; exact .host ch _ _
      next => split at h <;> cases h <;> exact .host _ _ _

theorem execGet_result (h : execGet s = .next t) : ExecResult s .hostGet t := by
  obtain ⟨ch, -, h⟩ := onHost_next h
  split at h
  next => cases h; exact .host ch _ _
  next => split at h <;> cases h; exact .host _ _ _

theorem execTick_result {r : TickRule} (hr : tickRule i = some r) (h : exec i s = .next t) : ExecResult s i t := by
  rw [exec_of_tickRule s hr] at h
  obtain ⟨ch, -, hg, rfl⟩ := onTick_next h
  exact .tick (tickRule_branch hr hg)

/-- An instruction that answers a next state answers with one of the listed states. -/
theorem exec_result (h : exec i s = .next t) : ExecResult s i t := by
  cases i
  case hostBegin => exact execBegin_result h
  case hostPut d => exact execPut_result h
  case hostGet => exact execGet_result h
  case hostRdy | hostStatus =>
    obtain ⟨ch, -, h⟩ := onHost_next h
    cases h
    exact .host ch _ _
  all_goals exact execTick_result rfl h

/-- Settles O41, by the states an instruction can answer with. -/
theorem instructionsKeepTheSystem : Obligations.InstructionsKeepTheSystem := by
  intro i s t h
  cases exec_result h with
  | host | register => simp
  | tick hb => simpa using fun _ => hb.not_host

end Sys2Proof.Machine

/-! ### Events and the rest of the interleaving -/

namespace Sys2Proof.Machine

variable {s t : State} {q : List Event}

/-- The same system with another interleaving still to come. -/
def State.withQueue (s : State) (q : List Event) : State := { s with queue := q }

/-- Change the next state of an outcome that has one. -/
def mapNext (f : State → State) : Host.Outcome State Fault Refusal → Host.Outcome State Fault Refusal
  | .next s => .next (f s)
  | .fault r => .fault r
  | .refused r => .refused r

@[simp] theorem mapNext_next (f : State → State) : mapNext f (.next s) = .next (f s) := rfl

@[simp] theorem State.withQueue_self : (s.withQueue q).self = s.self := rfl
@[simp] theorem State.withQueue_nTimers : (s.withQueue q).nTimers = s.nTimers := rfl
@[simp] theorem State.withQueue_sampled (ch : Channel) : (s.withQueue q).sampled ch = s.sampled ch := rfl
@[simp] theorem State.withQueue_nextDue (k : Nat) : (s.withQueue q).nextDue k = s.nextDue k := rfl

theorem onHost_withQueue {body body' : Channel → Host.Outcome State Fault Refusal}
    (hb : ∀ ch, body' ch = mapNext (·.withQueue q) (body ch)) :
    onHost (s.withQueue q) body' = mapNext (·.withQueue q) (onHost s body) := by
  unfold onHost
  rw [State.withQueue_self]
  cases s.self with
  | none => rfl
  | some ch => exact hb ch

theorem onTick_withQueue (guard : Lines → Channel → Option Fault)
    (rule : Lines → Channel → Channel × Option Label) :
    onTick (s.withQueue q) guard rule = mapNext (·.withQueue q) (onTick s guard rule) := by
  unfold onTick
  simp only [State.withQueue_self, State.withQueue_sampled]
  cases s.self with
  | none => rfl
  | some ch => dsimp only; cases guard (s.sampled ch) ch <;> rfl

theorem execTick_withQueue {i : Instr} {r : TickRule} (hr : tickRule i = some r) :
    exec i (s.withQueue q) = mapNext (·.withQueue q) (exec i s) := by
  rw [exec_of_tickRule _ hr, exec_of_tickRule _ hr]
  exact onTick_withQueue r.guard r.rule

/-- No instruction reads the interleaving to come. -/
theorem exec_withQueue (i : Instr) : exec i (s.withQueue q) = mapNext (·.withQueue q) (exec i s) := by
  cases i
  case hostBegin =>
    refine onHost_withQueue fun ch => ?_
    split <;> rfl
  case hostPut d =>
    refine onHost_withQueue fun ch => ?_
    split
    next => rfl
    next =>
      split
      next => rfl
      next =>
        split
        next => rfl
        next => cases ch.putPending <;> rfl
  case hostGet =>
    refine onHost_withQueue fun ch => ?_
    split
    next => rfl
    next => split <;> rfl
  case hostRdy | hostStatus => exact onHost_withQueue fun _ => rfl
  all_goals exact execTick_withQueue rfl

theorem deliverCommand_withQueue (bytes : List Byte) :
    deliverCommand (s.withQueue q) bytes = mapNext (·.withQueue q) (deliverCommand s bytes) := by
  unfold deliverCommand
  cases decodeHost bytes with
  | none => exact onHost_withQueue fun _ => rfl
  | some i => exact exec_withQueue i

theorem deliverTick_withQueue : deliverTick (s.withQueue q) = mapNext (·.withQueue q) (deliverTick s) := by
  unfold deliverTick
  rw [State.withQueue_self]
  cases s.self with
  | none => rfl
  | some ch =>
    dsimp only
    cases decodeTick ch.state with
    | none => rfl
    | some i => exact exec_withQueue i

theorem commitPut_withQueue : commitPut (s.withQueue q) = mapNext (·.withQueue q) (commitPut s) := by
  refine onHost_withQueue fun ch => ?_
  cases ch.commitEnabled with
  | none => rfl
  | some d => dsimp only; split <;> rfl

theorem retryIssue_withQueue (k : Nat) :
    retryIssue (s.withQueue q) k = mapNext (·.withQueue q) (retryIssue s k) := by
  refine onHost_withQueue fun ch => ?_
  cases ch.putPending <;> cases ch.waiters[k]? <;> rfl

theorem startPeriod_withQueue (k : Nat) :
    startPeriod (s.withQueue q) k = mapNext (·.withQueue q) (startPeriod s k) := by
  unfold startPeriod
  rw [State.withQueue_nTimers]
  split <;> rfl

theorem deliverDue_withQueue (k : Nat) :
    deliverDue (s.withQueue q) k = mapNext (·.withQueue q) (deliverDue s k) := by
  unfold deliverDue
  rw [State.withQueue_nTimers, State.withQueue_nextDue]
  split
  next =>
    cases s.nextDue k with
    | none => rfl
    | some c => exact deliverTick_withQueue (s := (s.popDue k).select c)
  next => rfl

/-- No event reads the interleaving to come after it (R58). -/
theorem deliver_withQueue (e : Event) : deliver (s.withQueue q) e = mapNext (·.withQueue q) (deliver s e) := by
  cases e with
  | host c bytes => exact deliverCommand_withQueue (s := s.select c) bytes
  | issue c k => exact retryIssue_withQueue (s := s.select c) k
  | commit c => exact commitPut_withQueue (s := s.select c)
  | tick c => exact deliverTick_withQueue (s := s.select c)
  | strobe k => exact startPeriod_withQueue k
  | deliver k => exact deliverDue_withQueue k
  | flip c line => exact onHost_withQueue (s := s.select c) fun _ => rfl
  | latch c => exact onHost_withQueue (s := s.select c) fun _ => rfl

/-- The step of an event at the head of the queue is the event's, with what follows it still to come. -/
theorem step_withQueue_cons {e : Event} {rest : List Event} (h : deliver s e = .next t) :
    step (s.withQueue (e :: rest)) = .next (t.withQueue rest) :=
  calc step (s.withQueue (e :: rest))
      = deliver (s.withQueue rest) e := step_cons rfl
    _ = mapNext (·.withQueue rest) (deliver s e) := deliver_withQueue e
    _ = .next (t.withQueue rest) := by rw [h, mapNext_next]

theorem State.withQueue_of_eq (h : s.queue = q) : s.withQueue q = s := h ▸ rfl

/-- A run goes on from the next state of its first step. -/
theorem core_run_succ (h : step s = .next t) (k : Nat) : core.run (k + 1) s = core.run k t := by
  have hs : core.step s = .next t := h
  simp only [Host.Core.run, hs]

/-- Settles O8, by induction on the events: each is the head of the queue when its step comes, and its step leaves the
rest of the queue. -/
theorem queueRunsAsSteps : Obligations.QueueRunsAsSteps := by
  intro es rest s t h
  induction es generalizing s with
  | nil => exact h
  | cons e es ih =>
    rw [deliverAll] at h
    split at h
    next u hu =>
      have hrest : u.withQueue rest = u := State.withQueue_of_eq (deliver_next hu).queue
      calc core.run (es.length + 1) (s.withQueue (e :: (es ++ rest)))
          = core.run es.length (u.withQueue (es ++ rest)) :=
            core_run_succ (step_withQueue_cons (s := s.withQueue rest) hu) es.length
        _ = .next t := ih u (show deliverAll es (u.withQueue rest) = .next t by rw [hrest]; exact h)
    next => cases h
    next => cases h

end Sys2Proof.Machine

/-! ### Accesses that cannot fault -/

namespace Sys2Proof.Machine

variable {s : State} {ch : Channel} {l : Lines} {i : Instr} {f : Fault}

/-! #### The guards of the tick rules, each in the state that selects its rule -/

theorem rxStartGuard_none (h : ch.CursorsOk) (hq : ch.state = Code.rxStart) : rxStartGuard l ch = none :=
  faultUnless_none.2 (by simp [(h.rxStart hq).1])

theorem Channel.CursorsOk.rxLen_lt_cap (h : ch.CursorsOk) : ch.rxLen.toNat < ch.cfg.cap.bytes := by
  have hr := h.rxRoom
  have hc := ch.cap_pos
  omega

theorem rxCharGuard_none (h : ch.CursorsOk) : rxCharGuard l ch = none :=
  faultUnless_none.2 (by simp [h.rxLen_lt_cap])

theorem rxAckGuard_none (h : ch.CursorsOk) (hq : ch.state = Code.rxAck) : rxAckGuard l ch = none :=
  faultUnless_none.2 (by simp [h.rxAck hq])

theorem rxChecksumGuard_none (h : ch.CursorsOk) : rxChecksumGuard l ch = none :=
  faultUnless_none.2 (by simp [h.rxLen_lt_cap.le])

theorem txStartGuard_none (h : ch.CursorsOk) (hq : ch.state = Code.txStart) : txStartGuard l ch = none :=
  faultUnless_none.2 (by simp [(h.txStart hq).1])

theorem txCharGuard_none (h : ch.CursorsOk) (hq : ch.state = Code.txChar) : txCharGuard l ch = none := by
  have hlt : ch.txCursor / 8 < ch.cfg.cap.bytes := by
    have hc := (h.txChar hq).2
    have hr := h.txRoom
    omega
  exact faultUnless_none.2 (by simp [hlt])

theorem txAckGuard_none (h : ch.CursorsOk) (hq : ch.state = Code.txAck) : txAckGuard l ch = none :=
  faultUnless_none.2 (by simp [h.txAck hq])

/-- The guard of the rule that a channel's state code selects passes, whatever the channel samples. -/
theorem tickRule_guard_none {r : TickRule} (h : ch.CursorsOk) (hd : decodeTick ch.state = some i)
    (hr : tickRule i = some r) : r.guard l ch = none := by
  have hi := encode_of_decodeTick hd
  cases i <;> simp only [tickRule, Option.some.injEq, reduceCtorEq] at hr <;> subst hr <;>
    simp only [encode, Encoded.tick.injEq] at hi
  case tickRxStart => exact rxStartGuard_none h hi.symm
  case tickRxChar => exact rxCharGuard_none h
  case tickRxAck => exact rxAckGuard_none h hi.symm
  case tickRxChecksum => exact rxChecksumGuard_none (l := l) h
  case tickTxStart => exact txStartGuard_none h hi.symm
  case tickTxChar => exact txCharGuard_none h hi.symm
  case tickTxAck => exact txAckGuard_none h hi.symm
  all_goals exact inRange_eq (ch := ch) l

/-! #### Events -/

/-- The channel an event acts on, if there is one, meets the control and the cursor invariant. -/
def State.SoundSelf (s : State) : Prop := ∀ ch, s.self = some ch → ch.ControlOk ∧ ch.CursorsOk

theorem State.Sound.select (h : s.Sound) (c : Nat) : (s.select c).SoundSelf := fun ch hs =>
  have hm : ch ∈ s.chans := List.mem_of_getElem? hs
  ⟨h.1 ch hm, h.2 ch hm⟩

/-- A host step faults only where its body does. -/
theorem onHost_fault {body : Channel → Host.Outcome State Fault Refusal} (h : onHost s body = .fault f) :
    ∃ ch, s.self = some ch ∧ body ch = .fault f := by
  unfold onHost at h
  split at h
  · cases h
  · exact ⟨_, ‹_›, h⟩

/-- Only state code 15 selects no tick operation (R77). -/
theorem decodeTick_eq_none {q : StateCode} (h : decodeTick q = none) : q = Code.unused := by
  revert q
  decide

theorem deliverTick_ne_fault (hs : s.SoundSelf) : deliverTick s ≠ .fault f := by
  intro h
  unfold deliverTick at h
  split at h
  next => cases h
  next ch hch =>
    obtain ⟨hctl, hcur⟩ := hs ch hch
    split at h
    next i hd =>
      obtain ⟨r, hr⟩ := tickRule_of_decodeTick hd
      rw [exec_of_tickRule s hr] at h
      obtain ⟨x, hx, hg⟩ := onTick_fault h
      obtain rfl := Option.some.inj (hch.symm.trans hx)
      cases (tickRule_guard_none hcur hd hr).symm.trans hg
    next hd => exact hctl.used (decodeTick_eq_none hd)

theorem execGet_ne_fault (hs : s.SoundSelf) : execGet s ≠ .fault f := by
  intro h
  obtain ⟨ch, hch, h⟩ := onHost_fault h
  have hl : ch.rxLen.toNat ≤ ch.cfg.cap.bytes := (hs ch hch).2.rxLen_lt_cap.le
  rw [if_pos hl] at h
  split at h <;> cases h

theorem execBegin_ne_fault : execBegin s ≠ .fault f := by
  intro h
  obtain ⟨ch, -, h⟩ := onHost_fault h
  split at h <;> cases h

theorem execPut_ne_fault (d : List Byte) : execPut d s ≠ .fault f := by
  intro h
  obtain ⟨ch, -, h⟩ := onHost_fault h
  split at h
  next => cases h
  next =>
    split at h
    next => cases h
    next =>
      split at h
      next => cases h
      next => split at h <;> cases h

/-- A host step whose body always completes does not fault. -/
theorem onHost_next_ne_fault (g : Channel → State) : onHost s (fun ch => .next (g ch)) ≠ .fault f := by
  intro h
  obtain ⟨ch, -, h⟩ := onHost_fault h
  cases h

theorem deliverCommand_ne_fault (hs : s.SoundSelf) (bytes : List Byte) : deliverCommand s bytes ≠ .fault f := by
  unfold deliverCommand
  split
  next i hd =>
    rcases decodeHost_cases hd with ⟨-, rfl⟩ | ⟨_, d, -, -, rfl⟩ | ⟨-, rfl⟩ | ⟨-, rfl⟩ | ⟨-, rfl⟩
    · exact execBegin_ne_fault
    · exact execPut_ne_fault d
    · exact onHost_next_ne_fault _
    · exact execGet_ne_fault hs
    · exact onHost_next_ne_fault _
  next => exact onHost_next_ne_fault _

theorem retryIssue_ne_fault (k : Nat) : retryIssue s k ≠ .fault f := by
  intro h
  obtain ⟨ch, -, h⟩ := onHost_fault h
  split at h <;> cases h

theorem commitPut_ne_fault (hs : s.SoundSelf) : commitPut s ≠ .fault f := by
  intro h
  obtain ⟨ch, hch, h⟩ := onHost_fault h
  split at h
  next => cases h
  next d hd =>
    have hp := ((hs ch hch).2.pending d (commitEnabled_eq_some.1 hd).2).1.short
    have hc := ch.cap_pos
    rw [if_pos (by omega)] at h
    cases h

theorem startPeriod_ne_fault (k : Nat) : startPeriod s k ≠ .fault f := by
  unfold startPeriod
  split <;> simp

theorem deliverDue_ne_fault (hs : s.Sound) (k : Nat) : deliverDue s k ≠ .fault f := by
  unfold deliverDue
  split
  next =>
    split
    next c _ => exact deliverTick_ne_fault (State.Sound.select (s := s.popDue k) hs c)
    next => simp
  next => simp

/-- No event faults in a state that meets the control and the cursor invariant. -/
theorem deliver_ne_fault (hs : s.Sound) (e : Event) : deliver s e ≠ .fault f := by
  cases e with
  | host c bytes => exact deliverCommand_ne_fault (hs.select c) bytes
  | issue c k => exact retryIssue_ne_fault k
  | commit c => exact commitPut_ne_fault (hs.select c)
  | tick c => exact deliverTick_ne_fault (hs.select c)
  | strobe k => exact startPeriod_ne_fault k
  | deliver k => exact deliverDue_ne_fault hs k
  | flip c line => exact onHost_next_ne_fault _
  | latch c => exact onHost_next_ne_fault _

/-- Settles O52: the invariants bound every index and exclude state code 15, whatever event comes next. -/
theorem invariantStatesNeverFault : Obligations.InvariantStatesNeverFault := by
  intro s f hctl hcur
  unfold step
  split
  next => simp [awaitEvent]
  next e rest _ => exact deliver_ne_fault (s := { s with queue := rest }) ⟨hctl, hcur⟩ e

end Sys2Proof.Machine

/-! ### Sampled levels -/

namespace Sys2Proof.Machine

variable {s t : State} {ch ch' p : Channel} {c : Nat}

/-- With nothing latched, a channel samples its wires, each line inverted where a flip is armed (R64, R101). -/
theorem State.sampled_of_not_latched (h : ch.inject.latched = none) :
    s.sampled ch =
      { rx := (s.wireLevels ch).rx ^^ ch.inject.flipRx, en := (s.wireLevels ch).en ^^ ch.inject.flipEn } := by
  simp [State.sampled, h]

theorem State.sampled_of_clean (h : ch.inject = Injection.none) : s.sampled ch = s.wireLevels ch := by
  rw [State.sampled_of_not_latched (by rw [h]; rfl), h]
  simp [Injection.none]

/-- Wires carry the output registers of the channel they lead to, once it drives them (R56). -/
theorem State.wireLevels_of_driven (hp : s.chans[ch.cfg.peer]? = some p) (hd : p.driven = true) :
    s.wireLevels ch = { rx := p.txOut, en := p.txEn } := by
  simp [State.wireLevels, State.wire, hp, hd]

/-- Wires that nothing drives carry free levels (R63). -/
theorem State.wireLevels_of_undriven (hp : s.chans[ch.cfg.peer]? = some p) (hd : p.driven = false) :
    s.wireLevels ch = { rx := Config.undrivenLevel s.draws, en := Config.undrivenLevel (s.draws + 1) } := by
  simp [State.wireLevels, State.wire, hp, hd]

/-- Settles O35: a channel with nothing injected samples its wires. -/
theorem sampledLevelsArePeerOutputs : Obligations.SampledLevelsArePeerOutputs := by
  intro s ch p hclean hp
  rw [State.sampled_of_clean hclean]
  exact ⟨State.wireLevels_of_driven hp, State.wireLevels_of_undriven hp⟩

/-- Whatever a flip arms on channel `c`, the wires of that channel carry what they carried: its own outputs stay, should
they be the wires' source. -/
theorem State.wireLevels_after_flip (hc : s.chans[c]? = some ch) (line : InputLine) :
    ((s.select c).finish (ch.armFlip line) none none).wireLevels (ch.armFlip line) = s.wireLevels ch := by
  obtain ⟨hlt, hget⟩ := List.getElem?_eq_some_iff.1 hc
  by_cases hp : ch.cfg.peer = c
  · simp [State.wireLevels, State.wire, hp, hlt, hget]
  · simp [State.wireLevels, State.wire, List.getElem?_set_ne (Ne.symm hp)]

theorem deliver_flip (hc : s.chans[c]? = some ch) (line : InputLine) :
    deliver s (.flip c line) = .next ((s.select c).finish (ch.armFlip line) none none) :=
  onHost_eq (s := s.select c) hc _

/-- What a channel with nothing injected samples once a flip of `line` is armed. -/
theorem State.sampled_after_flip (hc : s.chans[c]? = some ch) (hclean : ch.inject = Injection.none)
    (line : InputLine) :
    ((s.select c).finish (ch.armFlip line) none none).sampled (ch.armFlip line) =
      { rx := (s.sampled ch).rx ^^ decide (line = .rx), en := (s.sampled ch).en ^^ decide (line = .en) } := by
  have hl : (ch.armFlip line).inject.latched = none := by cases line <;> simp [Channel.armFlip, hclean, Injection.none]
  rw [State.sampled_of_not_latched hl, State.wireLevels_after_flip hc, State.sampled_of_clean hclean]
  cases line <;> simp [Channel.armFlip, hclean, Injection.none]

theorem chans_after_flip (hc : s.chans[c]? = some ch) (line : InputLine) :
    ((s.select c).finish (ch.armFlip line) none none).chans[c]? = some (ch.armFlip line) :=
  State.self_of_chans_set (s := s.select c) hc rfl rfl

theorem State.afterTick_self (hs : s.self = some ch) (x : Channel × Option Label) :
    (s.afterTick ch x).self = some { x.1 with inject := Injection.none } :=
  State.self_of_chans_set hs rfl rfl

/-- A tick step consumes what the harness injected (R64, R79). -/
theorem inject_after_tick (h : deliver s (.tick c) = .next t) (hc' : t.chans[c]? = some ch') :
    ch'.inject = Injection.none := by
  obtain ⟨_, i, -, hd, h⟩ := deliverTick_next (s := s.select c) h
  obtain ⟨r, hr⟩ := tickRule_of_decodeTick hd
  rw [exec_of_tickRule _ hr] at h
  obtain ⟨_, hs, -, rfl⟩ := onTick_next h
  rw [← Option.some.inj ((State.afterTick_self hs _).symm.trans hc')]

/-- Settles O36: arming a flip inverts one sampled line, and the next tick step clears it. -/
theorem flipInvertsOneSample : Obligations.FlipInvertsOneSample := by
  intro s c ch hc hclean
  have hsampled := State.sampled_after_flip hc hclean
  exact ⟨⟨_, _, deliver_flip hc .rx, chans_after_flip hc .rx, by simp [hsampled]⟩,
    ⟨_, _, deliver_flip hc .en, chans_after_flip hc .en, by simp [hsampled]⟩,
    fun _ _ _ _ _ h hc' => inject_after_tick h hc'⟩

end Sys2Proof.Machine

/-! PROOFS, family 30_encoding: the two formats' round trips, the step a command string runs, and where the machine stops
(spec/30_encoding.md). -/

/-! ### Encoding and decoding -/

namespace Sys2Proof.Machine

variable {i : Instr} {q : StateCode} {n : Byte} {d : List Byte}

/-- A `PUT` string decodes where its length byte counts its payload (R71, R72). -/
theorem decodeHost_put (n : Byte) (d : List Byte) :
    decodeHost (0x02#8 :: n :: d) = if d.length = n.toNat then some (.hostPut d) else none := by
  have hlen : (0x02#8 :: n :: d).length = commandLength (0x02#8 :: n :: d) ↔ d.length = n.toNat := by
    simp only [commandLength, List.length_cons, List.headD_cons, if_true]
    omega
  rw [decodeHost, if_congr hlen rfl rfl]
  rfl

/-- The length byte counts every payload that R72 admits. -/
theorem toNat_ofNat_length (h : d.length ≤ 255) : (BitVec.ofNat 8 d.length).toNat = d.length := by
  rw [BitVec.toNat_ofNat]
  omega

/-- A byte that counts a payload is the length byte of its encoding. -/
theorem encode_hostPut (h : d.length = n.toNat) : encode (.hostPut d) = .host (0x02#8 :: n :: d) := by
  simp [encode, h]

/-- The state code that encodes a tick operation selects it (R74, R76). -/
theorem decodeTick_of_encode (h : encode i = .tick q) : decodeTick q = some i := by
  cases i <;> simp only [encode, Encoded.tick.injEq, reduceCtorEq] at h <;> subst h <;> rfl

/-- A tick operation has no operand to check. -/
theorem wellFormed_of_encode_tick (h : encode i = .tick q) : i.wellFormed = true := by
  cases i
  case hostPut d => cases h
  all_goals rfl

/-- Settles O1: a `PUT` string by its length byte, every other encoding by its row. -/
theorem decodeOfEncodeIsIdentity : Obligations.DecodeOfEncodeIsIdentity := by
  intro i hwf
  cases i
  case hostPut d =>
    have hd : d.length ≤ 255 := of_decide_eq_true hwf
    exact (decodeHost_put _ d).trans (if_pos (toNat_ofNat_length hd).symm)
  case hostBegin | hostRdy | hostGet | hostStatus => rfl
  all_goals exact decodeTick_of_encode rfl

/-- Settles O2: the words that decode, written out by format, are the encodings of what they decode to. -/
theorem encodeOfDecodeIsIdentity : Obligations.EncodeOfDecodeIsIdentity := by
  intro w i h
  cases w with
  | host bytes =>
    rcases decodeHost_cases h with ⟨rfl, rfl⟩ | ⟨n, d, rfl, hd, rfl⟩ | ⟨rfl, rfl⟩ | ⟨rfl, rfl⟩ | ⟨rfl, rfl⟩
    case inr.inl =>
      have hwf : d.length ≤ 255 := by have := n.isLt; omega
      exact ⟨decide_eq_true hwf, encode_hostPut hd⟩
    all_goals exact ⟨rfl, rfl⟩
  | tick q =>
    have he : encode i = .tick q := encode_of_decodeTick h
    exact ⟨wellFormed_of_encode_tick he, he⟩

/-- Settles O3: six words decode by the round trip; a reserved code, a `PUT` string whose length byte miscounts its
payload and state code 15 do not. -/
theorem specWordsDecode : Obligations.SpecWordsDecode :=
  have decodes := decodeOfEncodeIsIdentity
  ⟨decodes .hostBegin rfl, decodes (.hostPut [0x41#8]) (by decide), decodes .hostGet rfl, decodes .tickReady rfl,
    decodes .tickRxChar rfl, decodes .tickTxDone rfl, by decide,
    (decodeHost_put 0x02#8 [0x41#8]).trans (if_neg (by decide)), by decide⟩

end Sys2Proof.Machine

/-! ### The step of a command string -/

namespace Sys2Proof.Machine

/-- Settles O5: the step delivers the string, and a string that decodes runs its command. -/
theorem stepRunsDecodedCommand : Obligations.StepRunsDecodedCommand := by
  intro s c bytes rest i hq hd _
  calc step s = deliverCommand (({ s with queue := rest } : State).select c) bytes := step_cons hq
    _ = exec i { s with queue := rest, active := c } := deliverCommand_eq hd

end Sys2Proof.Machine

/-! ### Where the machine stops -/

namespace Sys2Proof.Machine

variable {s : State} {ch : Channel} {l : Lines} {i : Instr} {f : Fault}

theorem faultUnless_eq_some {ok : Bool} : faultUnless ok f = some f ↔ ok = false := by
  cases ok <;> simp [faultUnless]

/-- A tick step faults where its guard does. -/
theorem onTick_eq_fault {guard : Lines → Channel → Option Fault} {rule : Lines → Channel → Channel × Option Label}
    (hs : s.self = some ch) (hg : guard (s.sampled ch) ch = some f) : onTick s guard rule = .fault f := by
  simp [onTick, hs, hg]

theorem execTick_eq_fault {r : TickRule} (hr : tickRule i = some r) (hs : s.self = some ch)
    (hg : r.guard (s.sampled ch) ch = some f) : exec i s = .fault f :=
  (exec_of_tickRule s hr).trans (onTick_eq_fault hs hg)

/-! #### The guards of the tick rules, each past its bound -/

theorem rxStartGuard_eq_fault (he : l.en = true) (ht : 4 ≤ ch.tis) : rxStartGuard l ch = some .tableIndex :=
  faultUnless_eq_some.2 (by simp [he]; omega)

theorem rxAckGuard_eq_fault (he : l.en = false) (ht : 3 ≤ ch.tis) : rxAckGuard l ch = some .tableIndex :=
  faultUnless_eq_some.2 (by simp [he]; omega)

theorem txStartGuard_eq_fault (he : l.en = false) (ht : 5 ≤ ch.tis) : txStartGuard l ch = some .tableIndex :=
  faultUnless_eq_some.2 (by simp [he]; omega)

theorem txAckGuard_eq_fault (he : l.en = false) (ht : 4 ≤ ch.tis) : txAckGuard l ch = some .tableIndex :=
  faultUnless_eq_some.2 (by simp [he]; omega)

theorem rxCharGuard_eq_fault (he : l.en = true) (ht : ch.tis % 8 = 7) (hl : ch.cfg.cap.bytes ≤ ch.rxLen.toNat) :
    rxCharGuard l ch = some .bufferIndex :=
  faultUnless_eq_some.2 (by simp [he, ht, hl])

theorem rxChecksumGuard_eq_fault (hl : ch.cfg.cap.bytes < ch.rxLen.toNat) :
    rxChecksumGuard l ch = some .bufferIndex :=
  faultUnless_eq_some.2 (by simp [hl])

theorem txCharGuard_eq_fault (he : l.en = false) (hr : l.rx = true) (hc : 8 * ch.cfg.cap.bytes ≤ ch.txCursor) :
    txCharGuard l ch = some .bufferIndex :=
  faultUnless_eq_some.2 (by simp [he, hr]; omega)

/-! #### Tick events, `GET` and the commit phase of `PUT` -/

theorem deliverTick_eq_fault (hs : s.self = some ch) (hq : ch.state = Code.unused) :
    deliverTick s = .fault .unusedStateCode := by
  have hd : decodeTick ch.state = none := by rw [hq]; rfl
  simp [deliverTick, hs, hd]

theorem execGet_eq_fault (hs : s.self = some ch) (hq : ch.state = Code.rxDone)
    (hl : ch.cfg.cap.bytes < ch.rxLen.toNat) : execGet s = .fault .bufferIndex := by
  rw [execGet, onHost_eq hs, if_neg (not_not_intro hq), if_neg (by omega)]

theorem commitPut_eq_fault {d : List Byte} (hs : s.self = some ch) (hc : ch.commitEnabled = some d)
    (hl : ch.cfg.cap.bytes ≤ d.length) : commitPut s = .fault .bufferIndex := by
  simp [commitPut, onHost_eq hs, hc, Nat.not_lt.2 hl]

/-- Settles O7: the unused state code selects no rule, and each guard stops its rule past its bound. -/
theorem outOfRangeAccessesFault : Obligations.OutOfRangeAccessesFault := by
  constructor
  case left =>
    intro s c ch rest hq hc hu
    exact (step_cons hq).trans (deliverTick_eq_fault (s := ({ s with queue := rest } : State).select c) hc hu)
  case right =>
    intro s ch hs
    refine ⟨?rxStart, ?rxAck, ?txStart, ?txAck, ?rxChar, ?rxChecksum, ?txChar, ?get, ?commit⟩
    case rxStart => exact fun he ht => execTick_eq_fault rfl hs (rxStartGuard_eq_fault he ht)
    case rxAck => exact fun he ht => execTick_eq_fault rfl hs (rxAckGuard_eq_fault he ht)
    case txStart => exact fun he ht => execTick_eq_fault rfl hs (txStartGuard_eq_fault he ht)
    case txAck => exact fun he ht => execTick_eq_fault rfl hs (txAckGuard_eq_fault he ht)
    case rxChar => exact fun he ht hl => execTick_eq_fault rfl hs (rxCharGuard_eq_fault he ht hl)
    case rxChecksum => exact fun hl => execTick_eq_fault rfl hs (rxChecksumGuard_eq_fault (l := s.sampled ch) hl)
    case txChar => exact fun he hr hc => execTick_eq_fault rfl hs (txCharGuard_eq_fault he hr hc)
    case get => exact fun hq hl => execGet_eq_fault hs hq hl
    case commit => exact fun d hb hp hl => commitPut_eq_fault hs (commitEnabled_eq_some.2 ⟨hb, hp⟩) hl

end Sys2Proof.Machine

/-! PROOFS, family 40_tick_common: the rule a tick event runs, and the two idle states' rules (spec/40_tick_common.md). -/

/-! ### The step of a tick event -/

namespace Sys2Proof.Machine

/-- Settles O6: the step delivers the tick event, and the selected channel's state code picks the rule. -/
theorem stepRunsSelectedTickRule : Obligations.StepRunsSelectedTickRule := by
  intro s c ch rest i hq hc hd
  calc step s = deliverTick (({ s with queue := rest } : State).select c) := step_cons hq
    _ = exec i { s with queue := rest, active := c } := deliverTick_eq hc hd

end Sys2Proof.Machine

/-! ### The idle states -/

namespace Sys2Proof.Machine

variable {s : State} {ch : Channel} {l : Lines} {i : Instr}

/-- A tick operation whose guard passes completes with its rule's result (R100). -/
theorem execTick_eq {r : TickRule} {x : Channel × Option Label} (hr : tickRule i = some r) (hs : s.self = some ch)
    (hg : r.guard (s.sampled ch) ch = none) (hx : r.rule (s.sampled ch) ch = x) :
    exec i s = .next (s.afterTick ch x) :=
  hx ▸ (exec_of_tickRule s hr).trans (onTick_eq hs hg)

/-- Settles O19: `skip` leaves only what every tick step consumes, which `State.afterTick` spells out. -/
theorem notinitTickWritesNothing : Obligations.NotinitTickWritesNothing :=
  ⟨rfl, fun _ _ hs => execTick_eq (r := ⟨inRange, notinitRule⟩) rfl hs rfl rfl⟩

/-! #### The branches of R108, with RxClear (R105) written out -/

theorem readyRule_receive (he : l.en = true) (hr : l.rx = true) :
    readyRule l ch = ({ ch with rxLen := 0#8, rxBuf := ch.rxBuf.write 0 0x00#8, rxShift := 0#8,
                                txOut := true, txEn := false, state := 2#4, tis := 0 }, none) :=
  if_pos ⟨he, hr⟩

theorem readyRule_send (he : l.en = false) (ht : ch.txReady = true) :
    readyRule l ch = ({ ch with txOut := true, txEn := true, txInProgress := true, txCursor := 0,
                                state := 9#4, tis := 0 }, none) :=
  (if_neg (by simp [he])).trans (if_pos ⟨he, ht⟩)

theorem readyRule_stay (hrecv : ¬ (l.en = true ∧ l.rx = true)) (hsend : ¬ (l.en = false ∧ ch.txReady = true)) :
    readyRule l ch = ({ ch with txOut := false, txEn := false, tis := ch.tis + 1 }, none) :=
  (if_neg hrecv).trans (if_neg hsend)

/-- Settles O20: the rule never faults, and each of its branches is the one of the statement. -/
theorem readyTickRule : Obligations.ReadyTickRule := by
  refine ⟨rfl, fun s ch hs => execTick_eq rfl hs rfl ?_⟩
  by_cases hrecv : (s.sampled ch).en = true ∧ (s.sampled ch).rx = true
  case pos => rw [if_pos hrecv]; exact readyRule_receive hrecv.1 hrecv.2
  case neg =>
    by_cases hsend : (s.sampled ch).en = false ∧ ch.txReady = true
    case pos => rw [if_neg hrecv, if_pos hsend]; exact readyRule_send hsend.1 hsend.2
    case neg => rw [if_neg hrecv, if_neg hsend]; exact readyRule_stay hrecv hsend

end Sys2Proof.Machine

/-! PROOFS, family 41_rx_states: the seven receive states' rules, and the message that waits in `RX_DONE`
(spec/41_rx_states.md). -/

/-! ### The waiting message -/

namespace Sys2Proof.Machine

variable {l : Lines} {ch ch' : Channel}

/-- R126 writes no byte and no length, and leaves `RX_DONE` only with nothing left to read. -/
theorem RuleBranch.keeps_waiting_message (h : RuleBranch l ch .tickRxDone ch') :
    ch'.rxBuf = ch.rxBuf ∧ ch'.rxLen = ch.rxLen ∧ (ch'.state ≠ ch.state → ch.rxLen = 0#8 ∧ ch'.state = 1#4) := by
  cases h with
  | rxDoneRelease hl => exact ⟨rfl, rfl, fun _ => ⟨hl, rfl⟩⟩
  | rxDoneHold => exact ⟨rfl, rfl, fun hne => absurd rfl hne⟩

/-- Settles O45, by the moves of an event: `GET` empties `rx_len`, the selected rule is R126, and no other move of a
begun channel reaches the receive side. -/
theorem waitingMessageIsKeptUntilGet : Obligations.WaitingMessageIsKeptUntilGet := by
  intro s t e c ch ch' h hc hc' hq hi
  cases deliver_move h hc hc' with
  | begin _ hn => exact absurd hi (by simp [hn])
  | get he => exact ⟨fun _ => rfl, fun _ => ⟨he, rfl⟩, fun hne => absurd hq hne⟩
  | tick l i r hd hr hg =>
    rw [hq] at hd
    obtain rfl : .tickRxDone = i := Option.some.inj hd
    obtain ⟨hbuf, hlen, hstate⟩ := (tickRule_branch hr hg).keeps_waiting_message
    exact ⟨fun a => congrArg (Memory.read · a) hbuf, fun hne => absurd hlen hne, fun hne => hstate (hq ▸ hne)⟩
  | flip x => exact ⟨by simp, by simp, by simp [hq]⟩
  | same | lock | wait | issue | commit | latch =>
    exact ⟨fun _ => rfl, fun hne => absurd rfl hne, fun hne => absurd hq hne⟩

end Sys2Proof.Machine

/-! ### The handshake states `RX_START` and `RX_ACK` -/

namespace Sys2Proof.Machine

variable {ch : Channel} {l : Lines}

/-! #### The branches of R120 -/

theorem rxStartGuard_none_of_tis (ht : l.en = true → ch.tis ≤ 3) : rxStartGuard l ch = none :=
  faultUnless_none.2 (by cases he : l.en <;> simp [he, ht])

theorem rxStartRule_enFall (he : l.en = false) :
    rxStartRule l ch = ({ ch with txOut := false, txEn := false, state := 6#4, tis := 0 },
      some (.syncRx 2#4 ch.tis .en)) :=
  if_pos he

theorem rxStartRule_wrongSymbol (he : l.en = true) (hx : l.rx ≠ preambleSymbol (ch.tis + 1)) :
    rxStartRule l ch = ({ ch with txOut := false, txEn := false, state := 6#4, tis := 0 },
      some (.syncRx 2#4 ch.tis .sym)) :=
  (if_neg (by simp [he])).trans (if_pos hx)

theorem rxStartRule_last (he : l.en = true) (hx : l.rx = preambleSymbol (ch.tis + 1)) (ht : ch.tis = 3) :
    rxStartRule l ch =
      ({ ch with txOut := preambleSymbol (ch.tis + 1), txEn := false, state := 3#4, tis := 0 }, none) :=
  (if_neg (by simp [he])).trans ((if_neg (not_not_intro hx)).trans (if_pos ht))

theorem rxStartRule_next (he : l.en = true) (hx : l.rx = preambleSymbol (ch.tis + 1)) (ht : ch.tis ≠ 3) :
    rxStartRule l ch =
      ({ ch with txOut := preambleSymbol (ch.tis + 1), txEn := false, tis := ch.tis + 1 }, none) :=
  (if_neg (by simp [he])).trans ((if_neg (not_not_intro hx)).trans (if_neg ht))

/-- Settles O21: the symbol of the statement is the one the rule looks up, and the guard's bound on `tis` is its
premise. -/
theorem rxStartTickRule : Obligations.RxStartTickRule := by
  refine ⟨rfl, fun s ch sym hs ht hsym => execTick_eq rfl hs (rxStartGuard_none_of_tis ht) ?_⟩
  obtain rfl : sym = preambleSymbol (ch.tis + 1) := hsym
  split
  next he => exact rxStartRule_enFall he
  next he =>
    have he : (s.sampled ch).en = true := by simpa using he
    split
    next hx => exact rxStartRule_wrongSymbol he hx
    next hx =>
      have hx := not_not.1 hx
      split
      next h3 => exact rxStartRule_last he hx h3
      next h3 => exact rxStartRule_next he hx h3

/-! #### The branches of R122 -/

theorem rxAckGuard_none_of_tis (ht : l.en = false → ch.tis ≤ 2) : rxAckGuard l ch = none :=
  faultUnless_none.2 (by cases he : l.en <;> simp [he, ht])

theorem rxAckRule_enRise (he : l.en = true) :
    rxAckRule l ch = ({ ch with txOut := false, txEn := false, state := 6#4, tis := 0 },
      some (.syncRx 4#4 ch.tis .en)) :=
  if_pos he

theorem rxAckRule_wrongSymbol (he : l.en = false) (hx : l.rx ≠ postambleSymbol (ch.tis + 1)) :
    rxAckRule l ch = ({ ch with txOut := false, txEn := false, state := 7#4, tis := 0 },
      some (.syncRx 4#4 ch.tis .sym)) :=
  (if_neg (by simp [he])).trans (if_pos hx)

theorem rxAckRule_last (he : l.en = false) (hx : l.rx = postambleSymbol (ch.tis + 1)) (ht : ch.tis = 2) :
    rxAckRule l ch =
      ({ ch with txOut := postambleSymbol (ch.tis + 1), txEn := false, state := 5#4, tis := 0 }, none) :=
  (if_neg (by simp [he])).trans ((if_neg (not_not_intro hx)).trans (if_pos ht))

theorem rxAckRule_next (he : l.en = false) (hx : l.rx = postambleSymbol (ch.tis + 1)) (ht : ch.tis ≠ 2) :
    rxAckRule l ch =
      ({ ch with txOut := postambleSymbol (ch.tis + 1), txEn := false, tis := ch.tis + 1 }, none) :=
  (if_neg (by simp [he])).trans ((if_neg (not_not_intro hx)).trans (if_neg ht))

/-- Settles O25, as O21 with the postamble table. -/
theorem rxAckTickRule : Obligations.RxAckTickRule := by
  refine ⟨rfl, fun s ch sym hs ht hsym => execTick_eq rfl hs (rxAckGuard_none_of_tis ht) ?_⟩
  obtain rfl : sym = postambleSymbol (ch.tis + 1) := hsym
  split
  next he => exact rxAckRule_enRise he
  next he =>
    have he : (s.sampled ch).en = false := by simpa using he
    split
    next hx => exact rxAckRule_wrongSymbol he hx
    next hx =>
      have hx := not_not.1 hx
      split
      next h2 => exact rxAckRule_last he hx h2
      next h2 => exact rxAckRule_next he hx h2

end Sys2Proof.Machine

/-! ### The data state `RX_CHAR` -/

namespace Sys2Proof.Machine

variable {ch : Channel} {l : Lines}

/-- `rx_shift OR zext_8(rx << p)` as R121 writes it. -/
theorem shiftIn_eq (shift : Byte) (rx : Level) (p : Nat) :
    shiftIn shift rx p = shift ||| (BitVec.setWidth 8 (BitVec.ofBool rx) <<< p) := by
  cases rx <;> simp [shiftIn]

/-! #### The branches of R121 -/

theorem rxCharGuard_none_of_data (hl : ch.tis % 8 = 7 → ch.rxLen.toNat < ch.cfg.cap.bytes) : rxCharGuard l ch = none :=
  faultUnless_none.2 (by by_cases hp : ch.tis % 8 = 7 <;> simp [hp, hl])

theorem rxCharGuard_none_of_fall (he : l.en = false) : rxCharGuard l ch = none :=
  faultUnless_none.2 (by simp [he])

theorem rxCharRule_bit (he : l.en = true) (hp : ch.tis % 8 < 7) :
    rxCharRule l ch = ({ ch with rxShift := shiftIn ch.rxShift l.rx (ch.tis % 8), txOut := true, txEn := false,
                                 tis := ch.tis + 1 }, none) :=
  (if_pos he).trans (if_pos hp)

theorem rxCharRule_overflow (he : l.en = true) (hp : ¬ ch.tis % 8 < 7) (hl : ch.rxLen.toNat = ch.cfg.cap.bytes - 1) :
    rxCharRule l ch = ({ ch with txOut := false, txEn := false, state := 6#4, tis := 0 },
      some (.overflow ch.rxLen)) :=
  (if_pos he).trans ((if_neg hp).trans (if_pos hl))

theorem rxCharRule_byte (he : l.en = true) (hp : ¬ ch.tis % 8 < 7) (hl : ch.rxLen.toNat ≠ ch.cfg.cap.bytes - 1) :
    rxCharRule l ch =
      ({ ch with
          rxBuf := (ch.rxBuf.write ch.rxLen.toNat (shiftIn ch.rxShift l.rx (ch.tis % 8))).write
            (ch.rxLen.toNat + 1) 0x00#8,
          rxLen := ch.rxLen + 1#8, rxShift := 0#8, txOut := true, txEn := false, tis := ch.tis + 1 }, none) :=
  (if_pos he).trans ((if_neg hp).trans (if_neg hl))

theorem rxCharRule_postamble (he : l.en = false) (hx : ch.tis % 8 = 0 ∧ l.rx = true) :
    rxCharRule l ch = ({ ch with txOut := true, txEn := false, state := 4#4, tis := 0 }, none) :=
  (if_neg (by simp [he])).trans (if_pos hx)

theorem rxCharRule_badFall (he : l.en = false) (hx : ¬ (ch.tis % 8 = 0 ∧ l.rx = true)) :
    rxCharRule l ch = ({ ch with txOut := false, txEn := false, state := 7#4, tis := 0 },
      some (.syncRx 3#4 ch.tis .post)) :=
  (if_neg (by simp [he])).trans (if_neg hx)

/-- Settles O22: the byte of the statement is `shiftIn`'s, and the guard's bound on `rx_len` is its premise. -/
theorem rxCharDataTickRule : Obligations.RxCharDataTickRule := by
  refine ⟨rfl, fun s ch b hs he hl hb => execTick_eq rfl hs (rxCharGuard_none_of_data hl) ?_⟩
  rw [← shiftIn_eq] at hb
  subst hb
  split
  next hp => exact rxCharRule_bit he hp
  next hp =>
    split
    next hfull => exact rxCharRule_overflow he hp hfull
    next hroom => exact rxCharRule_byte he hp hroom

/-- Settles O23: with `en = 0` the rule accesses no buffer, and its two branches are those of the statement. -/
theorem rxCharFallTickRule : Obligations.RxCharFallTickRule := by
  refine fun s ch hs he => execTick_eq rfl hs (rxCharGuard_none_of_fall he) ?_
  split
  next hx => exact rxCharRule_postamble he hx
  next hx => exact rxCharRule_badFall he hx

/-! #### The stored byte -/

/-- The eighth bit of a byte is its top bit. -/
theorem shiftIn_seven (shift : Byte) (rx : Level) :
    shiftIn shift rx 7 = shift ||| (if rx then 0x80#8 else 0x00#8) := by
  cases rx <;> rfl

theorem Channel.storeByte_read_byte (h : ch.rxBuf.wf) (b : Byte) : (ch.storeByte b).rxBuf.read ch.rxLen.toNat = b :=
  (Memory.read_write_of_ne _ _ (by omega)).trans (Memory.read_write_same h _ _)

theorem Channel.storeByte_read_term (h : ch.rxBuf.wf) (b : Byte) :
    (ch.storeByte b).rxBuf.read (ch.rxLen.toNat + 1) = 0x00#8 :=
  Memory.read_write_same (Memory.write_wf h _ _) _ _

/-- With room for the byte in a buffer of at most 256 bytes, the count does not wrap. -/
theorem Channel.rxLen_add_one_toNat (hl : ch.rxLen.toNat + 1 < ch.cfg.cap.bytes) :
    (ch.rxLen + 1#8).toNat = ch.rxLen.toNat + 1 := by
  have hcap := ch.cfg.cap.atMost
  rw [BitVec.toNat_add, BitVec.toNat_ofNat]
  omega

/-- Settles O24: the tick ends in `storeByte` of the shifted-in byte, and the buffer reads back what it wrote. -/
theorem completedByteIsStored : Obligations.CompletedByteIsStored := by
  intro s t ch ch' hs hwf he hp hl h ht
  have hexec := execTick_eq (i := .tickRxChar) rfl hs (rxCharGuard_none_of_data fun _ => by omega)
    (rxCharRule_byte he (by omega) (by omega))
  obtain rfl := Host.Outcome.next.inj (hexec.symm.trans h)
  obtain rfl := Option.some.inj ((State.afterTick_self hs _).symm.trans ht)
  rw [← shiftIn_seven, ← hp]
  exact ⟨Channel.storeByte_read_byte hwf _, Channel.storeByte_read_term hwf _, ch.rxLen_add_one_toNat hl⟩

end Sys2Proof.Machine

/-! ### The states that end a reception -/

namespace Sys2Proof.Machine

variable {ch : Channel} {l : Lines}

/-! #### The branches of R123 -/

theorem rxChecksumGuard_none_of_rxLen (l : Lines) (hl : ch.rxLen.toNat ≤ ch.cfg.cap.bytes) :
    rxChecksumGuard l ch = none :=
  faultUnless_none.2 (by simp [hl])

theorem rxChecksumRule_short (l : Lines) (hn : ch.rxLen.toNat ≤ 1) :
    rxChecksumRule l ch = ({ ch with txOut := false, txEn := false, state := 7#4, tis := 0 },
      some (.short ch.rxLen)) :=
  if_pos hn

theorem rxChecksumRule_accept (l : Lines) (hn : ¬ ch.rxLen.toNat ≤ 1)
    (hsum : xorFold (ch.rxBuf.readRange (ch.rxLen.toNat - 1)) = ch.rxBuf.read (ch.rxLen.toNat - 1)) :
    rxChecksumRule l ch = ({ ch with rxLen := ch.rxLen - 1#8, rxBuf := ch.rxBuf.write (ch.rxLen.toNat - 1) 0x00#8,
                                     txOut := false, txEn := false, state := 8#4, tis := 0 }, none) :=
  (if_neg hn).trans (if_pos hsum)

theorem rxChecksumRule_mismatch (l : Lines) (hn : ¬ ch.rxLen.toNat ≤ 1)
    (hsum : xorFold (ch.rxBuf.readRange (ch.rxLen.toNat - 1)) ≠ ch.rxBuf.read (ch.rxLen.toNat - 1)) :
    rxChecksumRule l ch = ({ ch with txOut := false, txEn := false, state := 7#4, tis := 0 },
      some (.checksum (xorFold (ch.rxBuf.readRange (ch.rxLen.toNat - 1))) (ch.rxBuf.read (ch.rxLen.toNat - 1)))) :=
  (if_neg hn).trans (if_neg hsum)

/-- Settles O26: the guard's bound on `rx_len` is the premise, and no branch reads the sampled lines. -/
theorem rxChecksumTickRule : Obligations.RxChecksumTickRule := by
  refine ⟨rfl, fun s ch sum last hs hl hsum hlast =>
    execTick_eq rfl hs (rxChecksumGuard_none_of_rxLen (s.sampled ch) hl) ?_⟩
  subst hsum hlast
  split
  next hn => exact rxChecksumRule_short (s.sampled ch) hn
  next hn =>
    split
    next hfold => exact rxChecksumRule_accept (s.sampled ch) hn hfold
    next hfold => exact rxChecksumRule_mismatch (s.sampled ch) hn hfold

/-! #### R124 and R125 -/

/-- The clean-up with RxClear (R105) written out. -/
theorem Channel.rxCleanUp_eq (ch : Channel) :
    ch.rxCleanUp = { ch with rxLen := 0#8, rxBuf := ch.rxBuf.write 0 0x00#8, rxShift := 0#8, txInProgress := false,
                             txOut := false, txEn := false, state := 1#4, tis := 0 } := rfl

/-- Settles O27: both rules are the clean-up, whatever the sampled lines. -/
theorem receiveErrorCleanUpRule : Obligations.ReceiveErrorCleanUpRule := by
  refine ⟨rfl, rfl, fun s ch ch' hs hch' => ?_⟩
  obtain rfl : ch' = ch.rxCleanUp := hch'.trans ch.rxCleanUp_eq.symm
  exact ⟨execTick_eq (r := ⟨inRange, rxAbortRule⟩) rfl hs rfl rfl,
    execTick_eq (r := ⟨inRange, rxErrRule⟩) rfl hs rfl rfl⟩

/-! #### The branches of R126 -/

theorem rxDoneRule_release (h : ch.rxLen = 0#8 ∧ l.en = false) :
    rxDoneRule l ch = ({ ch with txOut := false, txEn := false, state := 1#4, tis := 0 }, none) :=
  if_pos h

theorem rxDoneRule_hold (h : ¬ (ch.rxLen = 0#8 ∧ l.en = false)) :
    rxDoneRule l ch = ({ ch with txOut := false, txEn := false, tis := ch.tis + 1 }, none) :=
  if_neg h

/-- Settles O28: the rule never faults, and it releases or holds. -/
theorem rxDoneTickRule : Obligations.RxDoneTickRule := by
  refine ⟨rfl, fun s ch hs => execTick_eq rfl hs rfl ?_⟩
  split
  next h => exact rxDoneRule_release h
  next h => exact rxDoneRule_hold h

end Sys2Proof.Machine

/-! PROOFS, family 42_tx_states: the six transmit states' rules, and the collision that ends a transmission
(spec/42_tx_states.md). -/

/-! ### The handshake states `TX_START` and `TX_ACK` -/

namespace Sys2Proof.Machine

variable {ch : Channel} {l : Lines}

/-! #### The symbol an echo is checked against -/

/-- Within a table, the entry looked up is the symbol read with a default. -/
theorem table_getElem?_eq_some_iff {table : List Level} {k : Nat} {x : Level} (hk : k < table.length) :
    table[k]? = some x ↔ x = table.getD k Config.idle := by
  rw [List.getElem?_eq_getElem hk, List.getD_eq_getElem _ _ hk, Option.some.injEq, eq_comm]

theorem preamble_getElem?_eq_some_iff {k : Nat} {x : Level} (hk : k ≤ 4) :
    [true, false, true, false, true][k]? = some x ↔ x = preambleSymbol k :=
  table_getElem?_eq_some_iff (Nat.lt_succ_of_le hk)

theorem postamble_getElem?_eq_some_iff {k : Nat} {x : Level} (hk : k ≤ 3) :
    [true, false, true, false][k]? = some x ↔ x = postambleSymbol k :=
  table_getElem?_eq_some_iff (Nat.lt_succ_of_le hk)

/-! #### The branches of R140, with TxAbort (R106) written out -/

theorem txStartGuard_none_of_tis (ht : l.en = false → ch.tis ≤ 4) : txStartGuard l ch = none :=
  faultUnless_none.2 (by cases he : l.en <;> simp [he, ht])

theorem txStartRule_collision (he : l.en = true) :
    txStartRule l ch =
      ({ ch with txCursor := 0, txInProgress := false, txOut := false, txEn := false, state := 1#4, tis := 0 },
        some (.collision 9#4 ch.tis)) :=
  if_pos he

theorem txStartRule_wrongEcho (he : l.en = false) (hx : l.rx ≠ preambleSymbol ch.tis) :
    txStartRule l ch =
      ({ ch with txCursor := 0, txInProgress := false, txOut := false, txEn := false, state := 1#4, tis := 0 },
        some (.syncTx 9#4 ch.tis .sym)) :=
  (if_neg (by simp [he])).trans (if_pos hx)

theorem txStartRule_next (he : l.en = false) (hx : l.rx = preambleSymbol ch.tis) (ht : ch.tis < 4) :
    txStartRule l ch =
      ({ ch with txOut := preambleSymbol (ch.tis + 1), txEn := true, tis := ch.tis + 1 }, none) :=
  (if_neg (by simp [he])).trans ((if_neg (not_not_intro hx)).trans (if_pos ht))

theorem txStartRule_firstBit (he : l.en = false) (hx : l.rx = preambleSymbol ch.tis) (ht : ¬ ch.tis < 4) :
    txStartRule l ch =
      ({ ch with txOut := (ch.txBuf.read 0).getLsbD 0, txEn := true, txCursor := 1, state := 10#4, tis := 0 }, none) :=
  (if_neg (by simp [he])).trans ((if_neg (not_not_intro hx)).trans (if_neg ht))

/-- Settles O29: where the rule reads its table, the premise keeps `tis` inside it. -/
theorem txStartTickRule : Obligations.TxStartTickRule := by
  refine ⟨rfl, fun s ch hs ht => execTick_eq rfl hs (txStartGuard_none_of_tis ht) ?_⟩
  split
  next he => exact txStartRule_collision he
  next he =>
    have he : (s.sampled ch).en = false := by simpa using he
    have hecho := preamble_getElem?_eq_some_iff (x := (s.sampled ch).rx) (ht he)
    split
    next hx => exact txStartRule_wrongEcho he (mt hecho.2 hx)
    next hx =>
      have hx := hecho.1 (not_not.1 hx)
      split
      next h4 => exact txStartRule_next he hx h4
      next h4 => exact txStartRule_firstBit he hx h4

/-! #### The branches of R143 -/

theorem txAckGuard_none_of_tis (ht : l.en = false → ch.tis ≤ 3) : txAckGuard l ch = none :=
  faultUnless_none.2 (by cases he : l.en <;> simp [he, ht])

theorem txAckRule_collision (he : l.en = true) :
    txAckRule l ch = ({ ch with txOut := false, txEn := false, state := 13#4, tis := 0 },
      some (.collision 12#4 ch.tis)) :=
  if_pos he

theorem txAckRule_wrongEcho (he : l.en = false) (hx : l.rx ≠ postambleSymbol ch.tis) :
    txAckRule l ch = ({ ch with txOut := false, txEn := false, state := 13#4, tis := 0 },
      some (.syncTx 12#4 ch.tis .sym)) :=
  (if_neg (by simp [he])).trans (if_pos hx)

theorem txAckRule_next (he : l.en = false) (hx : l.rx = postambleSymbol ch.tis) (ht : ch.tis < 3) :
    txAckRule l ch =
      ({ ch with txOut := postambleSymbol (ch.tis + 1), txEn := false, tis := ch.tis + 1 }, none) :=
  (if_neg (by simp [he])).trans ((if_neg (not_not_intro hx)).trans (if_pos ht))

theorem txAckRule_last (he : l.en = false) (hx : l.rx = postambleSymbol ch.tis) (ht : ¬ ch.tis < 3) :
    txAckRule l ch = ({ ch with txOut := false, txEn := false, state := 14#4, tis := 0 }, none) :=
  (if_neg (by simp [he])).trans ((if_neg (not_not_intro hx)).trans (if_neg ht))

/-- Settles O32, as O29 with the postamble table. -/
theorem txAckTickRule : Obligations.TxAckTickRule := by
  refine ⟨rfl, fun s ch hs ht => execTick_eq rfl hs (txAckGuard_none_of_tis ht) ?_⟩
  split
  next he => exact txAckRule_collision he
  next he =>
    have he : (s.sampled ch).en = false := by simpa using he
    have hecho := postamble_getElem?_eq_some_iff (x := (s.sampled ch).rx) (ht he)
    split
    next hx => exact txAckRule_wrongEcho he (mt hecho.2 hx)
    next hx =>
      have hx := hecho.1 (not_not.1 hx)
      split
      next h3 => exact txAckRule_next he hx h3
      next h3 => exact txAckRule_last he hx h3

end Sys2Proof.Machine

/-! ### The data state `TX_CHAR` -/

namespace Sys2Proof.Machine

variable {ch : Channel} {l : Lines}

/-! #### The branches of R141, with TxBit (R163) written out -/

theorem txCharGuard_none_of_cursor (hc : l.en = false → l.rx = true → ch.txCursor < 8 * ch.cfg.cap.bytes) :
    txCharGuard l ch = none := by
  cases he : l.en
  case true => exact faultUnless_none.2 (by simp [he])
  case false =>
    cases hx : l.rx
    case false => exact faultUnless_none.2 (by simp [hx])
    case true => exact faultUnless_none.2 (by simp [Nat.div_lt_of_lt_mul (hc he hx)])

theorem txCharRule_collision (he : l.en = true) :
    txCharRule l ch =
      ({ ch with txCursor := 0, txInProgress := false, txOut := false, txEn := false, state := 1#4, tis := 0 },
        some (.collision 10#4 ch.txCursor)) :=
  if_pos he

theorem txCharRule_noListen (he : l.en = false) (hx : l.rx = false) :
    txCharRule l ch = ({ ch with txOut := false, txEn := false, state := 13#4, tis := 0 },
      some (.syncTx 10#4 ch.txCursor .listen)) :=
  (if_neg (by simp [he])).trans (if_pos (by simp [hx]))

theorem txCharRule_lastBit (he : l.en = false) (hx : l.rx = true) (hc : ch.txCursor + 1 = 8 * ch.txLen.toNat) :
    txCharRule l ch =
      ({ ch with txOut := (ch.txBuf.read (ch.txCursor / 8)).getLsbD (ch.txCursor % 8), txEn := true,
                 txCursor := ch.txCursor + 1, state := 11#4, tis := 0 }, none) :=
  (if_neg (by simp [he])).trans ((if_neg (not_not_intro hx)).trans (if_pos hc))

theorem txCharRule_nextBit (he : l.en = false) (hx : l.rx = true) (hc : ch.txCursor + 1 ≠ 8 * ch.txLen.toNat) :
    txCharRule l ch =
      ({ ch with txOut := (ch.txBuf.read (ch.txCursor / 8)).getLsbD (ch.txCursor % 8), txEn := true,
                 txCursor := ch.txCursor + 1, tis := ch.tis + 1 }, none) :=
  (if_neg (by simp [he])).trans ((if_neg (not_not_intro hx)).trans (if_neg hc))

/-- Settles O30: the guard reads the cursor only where the rule does, and there the premise bounds it. -/
theorem txCharTickRule : Obligations.TxCharTickRule := by
  refine ⟨rfl, fun s ch hs hc => execTick_eq rfl hs (txCharGuard_none_of_cursor hc) ?_⟩
  split
  next he => exact txCharRule_collision he
  next he =>
    have he : (s.sampled ch).en = false := by simpa using he
    split
    next hx => exact txCharRule_noListen he hx
    next hx =>
      have hx : (s.sampled ch).rx = true := by simpa using hx
      split
      next hlast => exact txCharRule_lastBit he hx hlast
      next hnext => exact txCharRule_nextBit he hx hnext

end Sys2Proof.Machine

/-! ### The states that read no input: `TX_END`, `TX_ERR` and `TX_DONE` -/

namespace Sys2Proof.Machine

variable {ch : Channel}

theorem txEndRule_eq (l : Lines) (ch : Channel) :
    txEndRule l ch = ({ ch with txOut := true, txEn := false, state := 12#4, tis := 0 }, none) := rfl

/-- Settles O31: the rule never faults and has one branch. -/
theorem txEndTickRule : Obligations.TxEndTickRule :=
  ⟨rfl, fun s ch hs => execTick_eq rfl hs rfl (txEndRule_eq (s.sampled ch) ch)⟩

/-- R144 with TxAbort (R106) written out. -/
theorem txErrRule_eq (l : Lines) (ch : Channel) :
    txErrRule l ch =
      ({ ch with txCursor := 0, txInProgress := false, txOut := false, txEn := false, state := 1#4, tis := 0 },
        none) := rfl

/-- Settles O33: the rule is the transmit clean-up, whatever the sampled lines. -/
theorem txErrTickRule : Obligations.TxErrTickRule :=
  ⟨rfl, fun s ch hs => execTick_eq rfl hs rfl (txErrRule_eq (s.sampled ch) ch)⟩

theorem txDoneRule_eq (l : Lines) (ch : Channel) :
    txDoneRule l ch =
      ({ ch with txLen := 0#8, txCursor := 0, txReady := false, txInProgress := false,
                 txOut := false, txEn := false, state := 1#4, tis := 0 }, none) := rfl

/-- With no transmission in progress, a held commit is enabled (R183). -/
theorem commitEnabled_of_not_txInProgress (h : ch.txInProgress = false) : ch.commitEnabled = ch.putPending := by
  simp [Channel.commitEnabled, h]

/-- Settles O34: the rule never faults, and it clears the flag that holds a commit back. -/
theorem txDoneTickRule : Obligations.TxDoneTickRule := by
  refine ⟨rfl, fun s ch ch' hs hch' => ?_⟩
  subst hch'
  exact ⟨execTick_eq rfl hs rfl (txDoneRule_eq (s.sampled ch) ch), commitEnabled_of_not_txInProgress rfl⟩

end Sys2Proof.Machine

/-! ### Collisions -/

namespace Sys2Proof.Machine

variable {s : State} {ch : Channel} {c : Nat} {i : Instr}

/-- A tick event whose rule's guard passes completes, and leaves its channel as the rule does, with the injections
consumed. -/
theorem deliver_tick_leaves {r : TickRule} {x : Channel × Option Label} (hc : s.chans[c]? = some ch)
    (hd : decodeTick ch.state = some i) (hr : tickRule i = some r) (hg : r.guard (s.sampled ch) ch = none)
    (hx : r.rule (s.sampled ch) ch = x) :
    ∃ t, deliver s (.tick c) = .next t ∧ t.chans[c]? = some { x.1 with inject := Injection.none } :=
  have hself : (s.select c).self = some ch := hc
  ⟨(s.select c).afterTick ch x, (deliverTick_eq hself hd).trans (execTick_eq hr hself hg hx),
    State.afterTick_self hself x⟩

/-- A collision in `TX_START` or `TX_CHAR` abandons the attempt straight to `READY` (R106, R140, R141). -/
theorem deliver_tick_collision_abandons (hc : s.chans[c]? = some ch) (hen : (s.sampled ch).en = true)
    (hq : ch.state = 9#4 ∨ ch.state = 10#4) :
    ∃ t, deliver s (.tick c) = .next t ∧ t.chans[c]? = some
      { ch with txCursor := 0, txInProgress := false, txOut := false, txEn := false, state := 1#4, tis := 0,
                inject := Injection.none } := by
  rcases hq with hq | hq
  case inl =>
    exact deliver_tick_leaves (i := .tickTxStart) hc (by rw [hq]; rfl) rfl
      (txStartGuard_none_of_tis (by simp [hen])) (txStartRule_collision hen)
  case inr =>
    exact deliver_tick_leaves (i := .tickTxChar) hc (by rw [hq]; rfl) rfl
      (txCharGuard_none_of_cursor (by simp [hen])) (txCharRule_collision hen)

/-- A collision in `TX_ACK` only silences the outputs and moves to `TX_ERR` (R143). -/
theorem deliver_tick_collision_txAck (hc : s.chans[c]? = some ch) (hen : (s.sampled ch).en = true)
    (hq : ch.state = 12#4) :
    ∃ t, deliver s (.tick c) = .next t ∧ t.chans[c]? = some
      { ch with txOut := false, txEn := false, state := 13#4, tis := 0, inject := Injection.none } :=
  deliver_tick_leaves (i := .tickTxAck) hc (by rw [hq]; rfl) rfl
    (txAckGuard_none_of_tis (by simp [hen])) (txAckRule_collision hen)

/-- A tick in `TX_ERR` cleans up, whatever the channel samples (R144). -/
theorem deliver_tick_txErr (hc : s.chans[c]? = some ch) (hq : ch.state = 13#4) :
    ∃ t, deliver s (.tick c) = .next t ∧ t.chans[c]? = some
      { ch with txCursor := 0, txInProgress := false, txOut := false, txEn := false, state := 1#4, tis := 0,
                inject := Injection.none } :=
  deliver_tick_leaves (i := .tickTxErr) hc (by rw [hq]; rfl) rfl rfl (txErrRule_eq (s.sampled ch) ch)

/-- Settles O54: from `TX_START` and `TX_CHAR` by the one step that abandons the attempt, from `TX_ACK` by the clean-up of
`TX_ERR` after it. -/
theorem collisionReturnsToReadyKeepingFrame : Obligations.CollisionReturnsToReadyKeepingFrame := by
  intro s c ch hc hq hen
  have hq : (ch.state = 9#4 ∨ ch.state = 10#4) ∨ ch.state = 12#4 := by simpa [or_assoc] using hq
  rcases hq with hq | hq
  case inl =>
    obtain ⟨t, ht, hct⟩ := deliver_tick_collision_abandons hc hen hq
    have hne : ch.state ≠ 12#4 := by rcases hq with hq | hq <;> simp [hq]
    exact ⟨t, _, ht, hct, rfl, rfl, rfl, rfl, rfl, fun _ => ⟨rfl, rfl, rfl⟩, fun h => absurd h hne⟩
  case inr =>
    obtain ⟨t, ht, hct⟩ := deliver_tick_collision_txAck hc hen hq
    obtain ⟨u, hu, hcu⟩ := deliver_tick_txErr hct rfl
    exact ⟨t, _, ht, hct, rfl, rfl, rfl, rfl, rfl, fun hne => absurd hq hne,
      fun _ => ⟨u, _, hu, hcu, rfl, rfl, rfl, rfl, rfl, rfl⟩⟩

end Sys2Proof.Machine

/-! PROOFS, family 43_framing: the checksum and the frame, what the buffers hold between steps, and the delivery of one
message over a link (spec/43_framing.md). -/

/-! ### The checksum -/

namespace Sys2Proof.Machine

open Sys2Proof.Claims

variable {s : State} {ch : Channel} {f m : List Byte}

/-- A frame is valid when the fold of all but its last byte is that byte (R161). -/
theorem xorFold_concat_eq_zero_iff (f : List Byte) (b : Byte) : xorFold (f ++ [b]) = 0#8 ↔ xorFold f = b := by
  rw [xorFold_append, xorFold_cons, xorFold_nil, BitVec.xor_zero, BitVec.xor_eq_zero_iff]

/-- The frame of a payload is valid (R161). -/
theorem xorFold_frame (d : List Byte) : xorFold (frame d) = 0#8 :=
  (xorFold_concat_eq_zero_iff d (checksum d)).2 rfl

/-- Exclusive or adds bits modulo 2. -/
theorem xor_toNat_mod_two (x y : Bool) : (x ^^ y).toNat % 2 = (x.toNat + y.toNat) % 2 := by
  cases x <;> cases y <;> rfl

/-- A bit of the fold is the parity of that bit over the list (R160). -/
theorem getLsbD_xorFold_toNat (d : List Byte) (j : Nat) :
    ((xorFold d).getLsbD j).toNat = (d.map fun b => (b.getLsbD j).toNat).sum % 2 := by
  induction d with
  | nil => simp
  | cons b d ih =>
    have hxor := xor_toNat_mod_two (b.getLsbD j) ((xorFold d).getLsbD j)
    rw [Nat.mod_eq_of_lt (Bool.toNat_lt _), ih] at hxor
    rw [xorFold_cons, BitVec.getLsbD_xor, hxor, List.map_cons, List.sum_cons, Nat.add_mod_mod]

/-- Settles O57: the fold of a list and its last byte is the XOR of the two, and XOR is the parity of each bit. -/
theorem frameValidityIsZeroFold : Obligations.FrameValidityIsZeroFold := by
  refine ⟨xorFold_concat_eq_zero_iff, xorFold_frame, fun d j => ?_⟩
  rw [← getLsbD_xorFold_toNat]
  cases (xorFold d).getLsbD j <;> rfl

/-! #### Odd numbers of flips -/

theorem xorFold_zipWith_xor (h : f.length = m.length) :
    xorFold (List.zipWith (· ^^^ ·) f m) = xorFold f ^^^ xorFold m := by
  induction f generalizing m with
  | nil =>
    obtain rfl : m = [] := List.eq_nil_of_length_eq_zero h.symm
    rfl
  | cons x f ih =>
    obtain ⟨y, m, rfl⟩ := List.exists_cons_of_length_eq_add_one h.symm
    rw [List.zipWith_cons_cons, xorFold_cons, ih (Nat.succ.inj h), xorFold_cons, xorFold_cons]
    ac_rfl

/-- The number of 1 bits is additive modulo 2, over any bit positions. -/
theorem sum_getLsbD_xor_mod_two (js : List Nat) (x y : Byte) :
    (js.map fun j => ((x ^^^ y).getLsbD j).toNat).sum % 2 =
      ((js.map fun j => (x.getLsbD j).toNat).sum + (js.map fun j => (y.getLsbD j).toNat).sum) % 2 := by
  induction js with
  | nil => rfl
  | cons j js ih =>
    have hbit := xor_toNat_mod_two (x.getLsbD j) (y.getLsbD j)
    simp only [List.map_cons, List.sum_cons, BitVec.getLsbD_xor] at ih ⊢
    omega

/-- The fold of the flip masks has as many 1 bits as were flipped, modulo 2. -/
theorem popcount_xorFold_mod_two (m : List Byte) : popcount (xorFold m) % 2 = flips m % 2 := by
  induction m with
  | nil => rfl
  | cons x m ih =>
    have hxor : popcount (x ^^^ xorFold m) % 2 = (popcount x + popcount (xorFold m)) % 2 :=
      sum_getLsbD_xor_mod_two _ x _
    have hflips : flips (x :: m) = popcount x + flips m := rfl
    rw [xorFold_cons]
    omega

theorem xorFold_ne_zero_of_odd_flips (h : flips m % 2 = 1) : xorFold m ≠ 0#8 := by
  intro h0
  have hpar := popcount_xorFold_mod_two m
  rw [h0, h] at hpar
  exact absurd hpar (by decide)

/-- The bytes of a received frame that is accepted fold to 0. -/
theorem Memory.xorFold_readRange_eq_zero_iff (m : Memory) {n : Nat} (hn : 1 ≤ n) :
    xorFold (m.readRange n) = 0#8 ↔ xorFold (m.readRange (n - 1)) = m.read (n - 1) := by
  obtain ⟨k, rfl⟩ := Nat.exists_eq_add_of_le' hn
  rw [Memory.readRange_succ]
  exact xorFold_concat_eq_zero_iff _ _

/-- Settles O56: flipping an odd number of bits changes the fold of a valid frame, so the computed checksum is not the
received one. -/
theorem oddBitFlipsAreRejected : Obligations.OddBitFlipsAreRejected := by
  intro s ch f m hs hlen hf hodd h2 hcap hrx
  have hfold : xorFold (ch.rxBuf.readRange ch.rxLen.toNat) ≠ 0#8 := by
    rw [hrx, xorFold_zipWith_xor hlen, hf, BitVec.zero_xor]
    exact xorFold_ne_zero_of_odd_flips hodd
  have hsum := mt (Memory.xorFold_readRange_eq_zero_iff ch.rxBuf (by omega)).2 hfold
  have hexec := execTick_eq (i := .tickRxChecksum) rfl hs (rxChecksumGuard_none_of_rxLen (s.sampled ch) hcap)
    (rxChecksumRule_mismatch (s.sampled ch) (by omega) hsum)
  exact ⟨_, _, _, _, hexec, State.afterTick_self hs _, rfl, rfl⟩

end Sys2Proof.Machine

/-! ### What the buffers hold -/

namespace Sys2Proof.Machine

variable {l : Lines} {ch ch' : Channel} {i : Instr} {e : Event} {c : Nat} {d : List Byte}

/-! The framing invariant falls into the receiver's part and the sender's. -/

/-- The receiver's part: the terminator stands after the received bytes (R44, R168). -/
def Channel.Terminated (ch : Channel) : Prop :=
  ch.receiving → (ch.state = Code.rxDone → ch.rxLen ≠ 0#8) → ch.rxBuf.read ch.rxLen.toNat = Config.term

/-- The sender's part: the first `n` bytes of a transmit buffer are a valid frame, or none, whose payload holds no
terminator. -/
def Memory.HoldsFrame (m : Memory) (n : Nat) : Prop :=
  xorFold (m.readRange n) = 0#8 ∧ ∀ i, i + 1 < n → m.read i ≠ Config.term

theorem Channel.framingOk_iff : ch.FramingOk ↔ ch.Terminated ∧ ch.txBuf.HoldsFrame ch.txLen.toNat :=
  ⟨fun h => ⟨h.terminated, h.valid, h.noTerm⟩, fun ⟨hrx, hvalid, hterm⟩ => ⟨hrx, hvalid, hterm⟩⟩

theorem Channel.Terminated.of_not_receiving (hq : ¬ ch.receiving) : ch.Terminated := fun h => absurd h hq

/-- A channel in `RX_DONE` with nothing left to read asks nothing of its buffer. -/
theorem Channel.Terminated.of_consumed (hq : ch.state = Code.rxDone) (hl : ch.rxLen = 0#8) : ch.Terminated :=
  fun _ h => absurd hl (h hq)

theorem Memory.holdsFrame_zero (m : Memory) : m.HoldsFrame 0 := ⟨rfl, fun _ hi => absurd hi (by omega)⟩

/-- A written frame is held. -/
theorem Memory.holdsFrame_writeList {m : Memory} (h : m.wf) (hd : Config.term ∉ d) :
    (m.writeList 0 (frame d)).HoldsFrame (d.length + 1) := by
  refine ⟨by rw [readRange_frame h, xorFold_frame], fun i hi => ?_⟩
  have hi : i < d.length := by omega
  have hread : (m.writeList 0 (frame d)).read i = d[i] := by
    rw [Memory.read_writeList h, if_pos ⟨Nat.zero_le i, by rw [frame_length]; omega⟩, Nat.sub_zero, frame,
      List.getD_append _ _ _ _ hi, List.getD_eq_getElem _ _ hi]
  rw [hread]
  exact fun heq => hd (heq ▸ List.getElem_mem hi)

/-- A tick rule, run in the state that selects it, keeps the receiver's part: a rule that changes `rx_len` writes the
terminator there, and a rule that leaves `rx_len` alone leaves the buffer alone. -/
theorem RuleBranch.keeps_terminated (hb : RuleBranch l ch i ch') (hi : encode i = .tick ch.state) (hwf : ch.rxBuf.wf)
    (h : ch.Terminated) : ch'.Terminated := by
  cases hb <;> simp only [encode, Encoded.tick.injEq] at hi
  case notinit | rxDoneHold => exact h
  case readyReceive => exact fun _ _ => Memory.read_write_same hwf 0 Config.term
  case rxCharByte hl =>
    intro _ _
    simpa [ch.rxLen_add_one_toNat hl] using Channel.storeByte_read_term hwf (shiftIn ch.rxShift l.rx (ch.tis % 8))
  case rxChecksumAccept hn _ _ =>
    intro _ _
    have hlen : (ch.rxLen - 1#8).toNat = ch.rxLen.toNat - 1 := by bv_omega
    simpa [hlen] using Memory.read_write_same hwf (ch.rxLen.toNat - 1) Config.term
  case rxStartAbort | rxStartLast | rxStartNext | rxCharBit | rxCharFall | rxCharAbort | rxCharErr | rxAckLast |
      rxAckNext | rxAckAbort | rxAckErr | rxChecksumErr =>
    exact fun _ _ => h (by simp [← hi]) (by simp [← hi])
  case readySend | readyWait | rxAbort | rxErr | rxDoneRelease | txStartAbandon | txStartNext | txStartLast |
      txCharAbandon | txCharErr | txCharLast | txCharNext | txEnd | txAckErr | txAckNext | txAckLast | txErr | txDone =>
    exact .of_not_receiving (by simp [← hi])

/-- A tick rule keeps the sender's part: only TX_DONE changes `tx_len`, to 0, and none writes `tx_buf`. -/
theorem RuleBranch.keeps_holdsFrame (hb : RuleBranch l ch i ch') (h : ch.txBuf.HoldsFrame ch.txLen.toNat) :
    ch'.txBuf.HoldsFrame ch'.txLen.toNat := by
  cases hb with
  | txDone => exact Memory.holdsFrame_zero _
  | _ => exact h

/-- The commit phase stages a valid frame of an accepted payload (R162). -/
theorem Channel.stage_holdsFrame (hwf : ch.txBuf.wf) (hd : PayloadOk ch d) :
    (ch.stage d).txBuf.HoldsFrame (ch.stage d).txLen.toNat := by
  have hshort := hd.short
  have hleast := ch.cfg.cap.atLeast
  have hmost := ch.cfg.cap.atMost
  have hlen : (ch.stage d).txLen.toNat = d.length + 1 := by
    rw [Channel.stage_txLen, BitVec.toNat_ofNat]
    omega
  rw [hlen]
  exact Memory.holdsFrame_writeList hwf hd.noTerm

/-- Every move keeps the framing invariant of a channel whose cursor and buffer invariants hold. -/
theorem ChannelMove.keeps_framingOk (hm : ChannelMove e c ch ch') (hcur : ch.CursorsOk) (hbuf : ch.BuffersOk)
    (h : ch.FramingOk) : ch'.FramingOk := by
  rw [Channel.framingOk_iff] at h ⊢
  obtain ⟨hrx, htx⟩ := h
  cases hm with
  | begin => exact ⟨.of_not_receiving (by simp), Memory.holdsFrame_zero _⟩
  | get he hq => exact ⟨.of_consumed hq rfl, htx⟩
  | commit d he hb hp => exact ⟨hrx, Channel.stage_holdsFrame hbuf.txWf (hcur.pending d hp).1⟩
  | tick l i r hd hr hg =>
    have hb := tickRule_branch hr hg
    exact ⟨hb.keeps_terminated (encode_of_decodeTick hd) hbuf.rxWf hrx, hb.keeps_holdsFrame htx⟩
  | flip x =>
    obtain ⟨inj, hx⟩ := ch.armFlip_eq_inject x
    exact hx ▸ ⟨hrx, htx⟩
  | same | lock | wait | issue | latch => exact ⟨hrx, htx⟩

/-- Settles O50, by the moves of an event. -/
theorem stepKeepsFramingInvariant : Obligations.StepKeepsFramingInvariant := fun _ _ _ hcur hbuf hs h =>
  step_keeps_allChannels (P := Channel.FramingOk)
    (fun _ _ _ _ hmem hch hm => hm.keeps_framingOk (hcur _ hmem) (hbuf _ hmem) hch) hs h

end Sys2Proof.Machine

/-! ### Runs of a link -/

namespace Sys2Proof.Machine

open Sys2Proof.Claims

variable {s t : State} {a b c n : Nat} {l : Lines} {ch ch' cha chb cha' chb' : Channel}

/-- The levels a channel drives. -/
def Channel.outputs (ch : Channel) : Lines := { rx := ch.txOut, en := ch.txEn }

/-- A tick event of a channel that samples `l` completes and leaves `ch'`. -/
def Channel.TicksTo (l : Lines) (ch ch' : Channel) : Prop :=
  ∃ i r, decodeTick ch.state = some i ∧ tickRule i = some r ∧ r.guard l ch = none ∧
    ch' = { (r.rule l ch).1 with inject := Injection.none }

theorem Channel.TicksTo.of_rule {i : Instr} {r : TickRule} {x : Channel} {o : Option Label}
    (hd : decodeTick ch.state = some i) (hr : tickRule i = some r) (hg : r.guard l ch = none)
    (hx : r.rule l ch = (x, o)) : ch.TicksTo l { x with inject := Injection.none } :=
  ⟨i, r, hd, hr, hg, by rw [hx]⟩

theorem Channel.TicksTo.sameHostFields (h : ch.TicksTo l ch') : SameHostFields ch ch' := by
  obtain ⟨i, r, -, hr, hg, rfl⟩ := h
  obtain ⟨h1, h2, h3, h4, h5, h6⟩ := (tickRule_branch hr hg).sameHostFields
  exact ⟨h1, h2, h3, h4, h5, h6⟩

theorem Channel.TicksTo.inject (h : ch.TicksTo l ch') : ch'.inject = Injection.none := by
  obtain ⟨i, r, -, -, -, rfl⟩ := h
  rfl

/-- `TicksTo` is what the machine does at a tick event of a channel that samples `l`. -/
theorem deliver_tick_of_ticksTo (hc : s.chans[c]? = some ch) (h : ch.TicksTo (s.sampled ch) ch') :
    ∃ t, deliver s (.tick c) = .next t ∧ t.chans = s.chans.set c ch' := by
  obtain ⟨i, r, hd, hr, hg, rfl⟩ := h
  have hself : (s.select c).self = some ch := hc
  exact ⟨_, (deliverTick_eq hself hd).trans (execTick_eq hr hself hg rfl), rfl⟩

/-- Channel `c` of the system is `ch`, with its wires to channel `p`, begun, and nothing injected. -/
structure LinkEnd (s : State) (c p : Nat) (ch : Channel) : Prop where
  get : s.chans[c]? = some ch
  peer : ch.cfg.peer = p
  driven : ch.driven = true
  clean : ch.inject = Injection.none

/-- Two channels joined by a link (R56). -/
structure Linked (s : State) (a b : Nat) (cha chb : Channel) : Prop where
  ne : a ≠ b
  left : LinkEnd s a b cha
  right : LinkEnd s b a chb

theorem Linked.symm (h : Linked s a b cha chb) : Linked s b a chb cha := ⟨h.ne.symm, h.right, h.left⟩

theorem Linked.of_idleLink (h : IdleLink s a b cha chb) : Linked s a b cha chb :=
  ⟨h.ne, ⟨h.ha, h.wired.1, h.driven.1, h.clean.1⟩, ⟨h.hb, h.wired.2, h.driven.2, h.clean.2⟩⟩

/-- Each end of a link samples what the other drives. -/
theorem Linked.sampled (h : Linked s a b cha chb) : s.sampled cha = chb.outputs :=
  (State.sampled_of_clean h.left.clean).trans
    (State.wireLevels_of_driven (h.left.peer.symm ▸ h.right.get) h.right.driven)

/-- One end of a link ticks: it samples the other's outputs, and the link stays. -/
theorem Linked.tick (h : Linked s a b cha chb) (ht : cha.TicksTo chb.outputs cha') :
    ∃ t, deliver s (.tick a) = .next t ∧ Linked t a b cha' chb := by
  obtain ⟨t, hdel, hchans⟩ := deliver_tick_of_ticksTo h.left.get (h.sampled.symm ▸ ht)
  have kept := ht.sameHostFields
  obtain ⟨hlt, -⟩ := List.getElem?_eq_some_iff.1 h.left.get
  refine ⟨t, hdel, h.ne, ⟨?_, ?_, ?_, ht.inject⟩, ⟨?_, h.right.peer, h.right.driven, h.right.clean⟩⟩
  · rw [hchans, List.getElem?_set_self hlt]
  · rw [kept.cfg, h.left.peer]
  · rw [kept.driven, h.left.driven]
  · rw [hchans, List.getElem?_set_ne h.ne, h.right.get]

theorem deliverAll_append {es es' : List Event} (h : deliverAll es s = .next t) :
    deliverAll (es ++ es') s = deliverAll es' t := by
  induction es generalizing s with
  | nil => cases h; rfl
  | cons e es ih =>
    rw [deliverAll] at h
    split at h
    next u hu =>
      rw [List.cons_append, deliverAll, hu]
      exact ih h
    next => cases h
    next => cases h

/-- A period of the fault-free schedule: the first end ticks, and the second samples what the first drives then (R57). -/
theorem Linked.deliverAll_period (h : Linked s a b cha chb) (ha : cha.TicksTo chb.outputs cha')
    (hb : chb.TicksTo cha'.outputs chb') :
    ∃ t, deliverAll (period a b) s = .next t ∧ Linked t a b cha' chb' := by
  obtain ⟨u, hu, hlu⟩ := h.tick ha
  obtain ⟨t, ht, hlt⟩ := hlu.symm.tick hb
  exact ⟨t, by simp [period, deliverAll, hu, ht], hlt.symm⟩

/-- After `n` periods of the fault-free schedule from `s`, the ends of the link are `cha` and `chb`. -/
def RunsTo (s : State) (a b n : Nat) (cha chb : Channel) : Prop :=
  ∃ t, deliverAll ((List.replicate n (period a b)).flatten) s = .next t ∧ Linked t a b cha chb

theorem Linked.runsTo (h : Linked s a b cha chb) : RunsTo s a b 0 cha chb := ⟨s, rfl, h⟩

theorem RunsTo.next (h : RunsTo s a b n cha chb) (ha : cha.TicksTo chb.outputs cha')
    (hb : chb.TicksTo cha'.outputs chb') : RunsTo s a b (n + 1) cha' chb' := by
  obtain ⟨u, hu, hlink⟩ := h
  obtain ⟨t, ht, hlink'⟩ := hlink.deliverAll_period ha hb
  refine ⟨t, ?_, hlink'⟩
  rw [List.replicate_succ', List.flatten_concat, deliverAll_append hu, ht]

end Sys2Proof.Machine

/-! ### The steps of a fault-free exchange

Each lemma is one line of the tables of R165 and R166: the state, the outputs driven before it and the levels sampled. -/

namespace Sys2Proof.Machine

variable {l : Lines} {ch : Channel} {q : StateCode} {k c : Nat} {d e : Level}

/-- The channel in state `q` after `k` steps there, driving `(d, e)`, with nothing injected. -/
def Channel.inState (ch : Channel) (q : StateCode) (k : Nat) (d e : Level) : Channel :=
  { ch with state := q, tis := k, txOut := d, txEn := e, inject := Injection.none }

/-- The channel with a transmission in progress and `c` frame bits driven. -/
def Channel.sending (ch : Channel) (c : Nat) : Channel := { ch with txInProgress := true, txCursor := c }

/-- The channel with its TX buffer empty (R145). -/
def Channel.sent (ch : Channel) : Channel :=
  { ch with txLen := 0#8, txCursor := 0, txReady := false, txInProgress := false }

/-! #### The sender (R165) -/

theorem ticksTo_ready_send (hq : ch.state = Code.ready) (he : l.en = false) (hr : ch.txReady = true) :
    ch.TicksTo l ((ch.sending 0).inState 9#4 0 true true) :=
  .of_rule (i := .tickReady) (by rw [hq]; rfl) rfl rfl (readyRule_send he hr)

theorem ticksTo_txStart_next (hk : k < 4) :
    (ch.inState 9#4 k d e).TicksTo ⟨preambleSymbol k, false⟩ (ch.inState 9#4 (k + 1) (preambleSymbol (k + 1)) true) :=
  .of_rule (i := .tickTxStart) rfl rfl (txStartGuard_none_of_tis fun _ => hk.le) (txStartRule_next rfl rfl hk)

theorem ticksTo_txStart_firstBit :
    ((ch.sending c).inState 9#4 4 d e).TicksTo ⟨true, false⟩ ((ch.sending 1).inState 10#4 0 (ch.txBit 0) true) :=
  .of_rule (i := .tickTxStart) rfl rfl (txStartGuard_none_of_tis fun _ => le_rfl)
    (txStartRule_firstBit rfl rfl (lt_irrefl 4))

theorem txCharGuard_none_of_staged (hroom : ch.txLen.toNat < ch.cfg.cap.bytes) (hc : c < 8 * ch.txLen.toNat) :
    txCharGuard l ((ch.sending c).inState q k d e) = none := by
  refine txCharGuard_none_of_cursor fun _ _ => ?_
  change c < 8 * ch.cfg.cap.bytes
  omega

theorem ticksTo_txChar_nextBit (hroom : ch.txLen.toNat < ch.cfg.cap.bytes) (hc : c + 1 < 8 * ch.txLen.toNat) :
    ((ch.sending c).inState 10#4 k d e).TicksTo ⟨true, false⟩
      ((ch.sending (c + 1)).inState 10#4 (k + 1) (ch.txBit c) true) :=
  .of_rule (i := .tickTxChar) rfl rfl (txCharGuard_none_of_staged hroom (by omega)) (txCharRule_nextBit rfl rfl hc.ne)

theorem ticksTo_txChar_lastBit (hroom : ch.txLen.toNat < ch.cfg.cap.bytes) (hc : c + 1 = 8 * ch.txLen.toNat) :
    ((ch.sending c).inState 10#4 k d e).TicksTo ⟨true, false⟩
      ((ch.sending (c + 1)).inState 11#4 0 (ch.txBit c) true) :=
  .of_rule (i := .tickTxChar) rfl rfl (txCharGuard_none_of_staged hroom (by omega)) (txCharRule_lastBit rfl rfl hc)

theorem ticksTo_txEnd : (ch.inState 11#4 k d e).TicksTo l (ch.inState 12#4 0 true false) :=
  .of_rule (i := .tickTxEnd) rfl rfl rfl (txEndRule_eq l _)

theorem ticksTo_txAck_next (hk : k < 3) :
    (ch.inState 12#4 k d e).TicksTo ⟨postambleSymbol k, false⟩
      (ch.inState 12#4 (k + 1) (postambleSymbol (k + 1)) false) :=
  .of_rule (i := .tickTxAck) rfl rfl (txAckGuard_none_of_tis fun _ => hk.le) (txAckRule_next rfl rfl hk)

theorem ticksTo_txAck_last : (ch.inState 12#4 3 d e).TicksTo ⟨false, false⟩ (ch.inState 14#4 0 false false) :=
  .of_rule (i := .tickTxAck) rfl rfl (txAckGuard_none_of_tis fun _ => le_rfl) (txAckRule_last rfl rfl (lt_irrefl 3))

theorem ticksTo_txDone : (ch.inState 14#4 k d e).TicksTo l (ch.sent.inState 1#4 0 false false) :=
  .of_rule (i := .tickTxDone) rfl rfl rfl (txDoneRule_eq l _)

/-! #### The receiver, but for its data steps (R166) -/

theorem ticksTo_ready_receive (hq : ch.state = Code.ready) :
    ch.TicksTo ⟨true, true⟩ (ch.rxClear.inState 2#4 0 true false) :=
  .of_rule (i := .tickReady) (by rw [hq]; rfl) rfl rfl (readyRule_receive rfl rfl)

theorem ticksTo_rxStart_next (hk : k < 3) :
    (ch.inState 2#4 k d e).TicksTo ⟨preambleSymbol (k + 1), true⟩
      (ch.inState 2#4 (k + 1) (preambleSymbol (k + 1)) false) :=
  .of_rule (i := .tickRxStart) rfl rfl (rxStartGuard_none_of_tis fun _ => hk.le) (rxStartRule_next rfl rfl hk.ne)

theorem ticksTo_rxStart_last : (ch.inState 2#4 3 d e).TicksTo ⟨true, true⟩ (ch.inState 3#4 0 true false) :=
  .of_rule (i := .tickRxStart) rfl rfl (rxStartGuard_none_of_tis fun _ => le_rfl) (rxStartRule_last rfl rfl rfl)

theorem ticksTo_rxChar_postamble (hk : k % 8 = 0) :
    (ch.inState 3#4 k d e).TicksTo ⟨true, false⟩ (ch.inState 4#4 0 true false) :=
  .of_rule (i := .tickRxChar) rfl rfl (rxCharGuard_none_of_fall rfl) (rxCharRule_postamble rfl ⟨hk, rfl⟩)

theorem ticksTo_rxAck_next (hk : k < 2) :
    (ch.inState 4#4 k d e).TicksTo ⟨postambleSymbol (k + 1), false⟩
      (ch.inState 4#4 (k + 1) (postambleSymbol (k + 1)) false) :=
  .of_rule (i := .tickRxAck) rfl rfl (rxAckGuard_none_of_tis fun _ => hk.le) (rxAckRule_next rfl rfl hk.ne)

theorem ticksTo_rxAck_last : (ch.inState 4#4 2 d e).TicksTo ⟨false, false⟩ (ch.inState 5#4 0 false false) :=
  .of_rule (i := .tickRxAck) rfl rfl (rxAckGuard_none_of_tis fun _ => le_rfl) (rxAckRule_last rfl rfl rfl)

theorem ticksTo_rxChecksum_accept (hroom : ch.rxLen.toNat ≤ ch.cfg.cap.bytes) (hn : 1 < ch.rxLen.toNat)
    (hsum : xorFold (ch.rxBuf.readRange (ch.rxLen.toNat - 1)) = ch.rxBuf.read (ch.rxLen.toNat - 1)) :
    (ch.inState 5#4 k d e).TicksTo l (ch.strip.inState 8#4 0 false false) :=
  .of_rule (i := .tickRxChecksum) (ch := ch.inState 5#4 k d e) rfl rfl (rxChecksumGuard_none_of_rxLen l hroom)
    (rxChecksumRule_accept l hn.not_ge hsum)

theorem ticksTo_rxDone_hold (hl : ch.rxLen ≠ 0#8) :
    (ch.inState 8#4 k d e).TicksTo l (ch.inState 8#4 (k + 1) false false) :=
  .of_rule (i := .tickRxDone) (ch := ch.inState 8#4 k d e) rfl rfl rfl (rxDoneRule_hold fun h => hl h.1)

end Sys2Proof.Machine

/-! ### The decoder (R164) -/

namespace Sys2Proof.Machine

variable {ch : Channel} {m : Memory} {n c p : Nat} {x byte : Byte} {d : List Byte}

/-- `x` holds the bits of `byte` below `p`, and 0 from `p` on. -/
def LowBits (byte : Byte) (p : Nat) (x : Byte) : Prop := ∀ j, x.getLsbD j = (decide (j < p) && byte.getLsbD j)

theorem lowBits_zero (byte : Byte) : LowBits byte 0 0#8 := fun j => by simp

theorem LowBits.eq (h : LowBits byte 8 x) : x = byte :=
  BitVec.eq_of_getLsbD_eq fun j hj => by rw [h j, decide_eq_true hj, Bool.true_and]

theorem getLsbD_shiftIn (shift : Byte) (rx : Level) (hp : p < 8) (j : Nat) :
    (shiftIn shift rx p).getLsbD j = (shift.getLsbD j || (rx && decide (p = j))) := by
  have hbit : (1#8 <<< p).getLsbD j = decide (p = j) := by
    rw [← BitVec.twoPow_eq, BitVec.getLsbD_twoPow, decide_eq_true hp, Bool.true_and]
  cases rx
  case false => simp [shiftIn]
  case true => simp [shiftIn, hbit]

/-- Shifting in the next bit of a byte. -/
theorem LowBits.shiftIn (h : LowBits byte p x) (hp : p < 8) :
    LowBits byte (p + 1) (shiftIn x (byte.getLsbD p) p) := by
  intro j
  rw [getLsbD_shiftIn x _ hp, h j]
  rcases Nat.lt_trichotomy j p with hj | rfl | hj
  · simp [hj, hj.ne', Nat.lt_succ_of_lt hj]
  · simp
  · simp [hj.ne, Nat.not_lt.2 hj.le, Nat.not_lt.2 (Nat.succ_le_of_lt hj)]

/-- The receiver holds the first `c` bits of the `n` bytes that `m` lists, and has room for them all: the whole bytes in
`rx_buf`, the rest in `rx_shift`. -/
structure Channel.Received (m : Memory) (n c : Nat) (ch : Channel) : Prop where
  room : n < ch.cfg.cap.bytes
  wf : ch.rxBuf.wf
  len : ch.rxLen.toNat = c / 8
  bytes : ∀ i, i < c / 8 → ch.rxBuf.read i = m.read i
  shift : LowBits (m.read (c / 8)) (c % 8) ch.rxShift

/-- RxClear starts a reception (R105). -/
theorem Channel.received_rxClear (m : Memory) (hroom : n < ch.cfg.cap.bytes) (hwf : ch.rxBuf.wf) :
    ch.rxClear.Received m n 0 :=
  ⟨hroom, Memory.write_wf hwf _ _, rfl, fun _ hi => absurd hi (Nat.not_lt_zero _), lowBits_zero _⟩

/-- A bit short of a whole byte goes to `rx_shift`. -/
theorem Channel.Received.shiftBit (h : ch.Received m n c) (hp : c % 8 < 7) :
    ({ ch with rxShift := shiftIn ch.rxShift ((m.read (c / 8)).getLsbD (c % 8)) (c % 8) } : Channel).Received
      m n (c + 1) := by
  have hdiv : (c + 1) / 8 = c / 8 := by omega
  have hmod : (c + 1) % 8 = c % 8 + 1 := by omega
  refine ⟨h.room, h.wf, ?_, ?_, ?_⟩
  · rw [hdiv]; exact h.len
  · rw [hdiv]; exact h.bytes
  · rw [hdiv, hmod]; exact h.shift.shiftIn (by omega)

/-- The eighth bit completes the byte that `m` lists. -/
theorem Channel.Received.storeByte (h : ch.Received m n c) (hc : c < 8 * n) (hp : c % 8 = 7) :
    (ch.storeByte (shiftIn ch.rxShift ((m.read (c / 8)).getLsbD (c % 8)) (c % 8))).Received m n (c + 1) := by
  have hdiv : (c + 1) / 8 = c / 8 + 1 := by omega
  have hmod : (c + 1) % 8 = 0 := by omega
  have hlen := h.len
  have hroom := h.room
  have hbyte : shiftIn ch.rxShift ((m.read (c / 8)).getLsbD (c % 8)) (c % 8) = m.read (c / 8) :=
    LowBits.eq (by simpa [hp] using h.shift.shiftIn (by omega))
  rw [hbyte]
  refine ⟨hroom, Memory.write_wf (Memory.write_wf h.wf _ _) _ _, ?_, fun i hi => ?_, ?_⟩
  · rw [Channel.storeByte_rxLen, ch.rxLen_add_one_toNat (by omega), hlen, hdiv]
  · rcases Nat.lt_succ_iff_lt_or_eq.1 (hdiv ▸ hi) with hi | rfl
    · rw [Channel.storeByte_rxBuf, Memory.read_write_of_ne _ _ (by omega), Memory.read_write_of_ne _ _ (by omega),
        h.bytes i hi]
    · rw [← hlen, Channel.storeByte_read_byte h.wf]
  · rw [hmod]; exact lowBits_zero _

/-- A receiver that samples the next bit holds one bit more. -/
theorem Channel.Received.tick (h : ch.Received m n c) (hc : c < 8 * n) (d e : Level) :
    ∃ ch' : Channel, ch'.Received m n (c + 1) ∧
      (ch.inState 3#4 c d e).TicksTo ⟨(m.read (c / 8)).getLsbD (c % 8), true⟩ (ch'.inState 3#4 (c + 1) true false) := by
  have hlen := h.len
  have hroom := h.room
  have hguard (l : Lines) : rxCharGuard l (ch.inState 3#4 c d e) = none :=
    rxCharGuard_none_of_data fun _ => by change ch.rxLen.toNat < ch.cfg.cap.bytes; omega
  by_cases hp : c % 8 < 7
  case pos => exact ⟨_, h.shiftBit hp, .of_rule (i := .tickRxChar) rfl rfl (hguard _) (rxCharRule_bit rfl hp)⟩
  case neg =>
    have hne : ch.rxLen.toNat ≠ ch.cfg.cap.bytes - 1 := by omega
    exact ⟨_, h.storeByte hc (by omega), .of_rule (i := .tickRxChar) rfl rfl (hguard _) (rxCharRule_byte rfl hp hne)⟩

/-- A whole frame received. -/
theorem Channel.Received.readRange (h : ch.Received m n (8 * n)) :
    ch.rxLen.toNat = n ∧ ch.rxBuf.readRange n = m.readRange n := by
  have hdiv : 8 * n / 8 = n := by omega
  refine ⟨h.len.trans hdiv, Memory.readRange_congr fun i hi => h.bytes i (by omega)⟩

/-- The receiver holds the payload `d`, its checksum stripped (R123). -/
structure Channel.HoldsPayload (d : List Byte) (ch : Channel) : Prop where
  room : ch.rxLen.toNat ≤ ch.cfg.cap.bytes
  len : ch.rxLen.toNat = d.length
  bytes : ch.rxBuf.readRange d.length = d

/-- A received frame of a payload that is not empty passes its check and leaves the payload (R164). -/
theorem Channel.Received.accept (h : ch.Received m n (8 * n)) (hn : n = d.length + 1) (hd : 1 ≤ d.length)
    (hm : m.readRange n = frame d) (k : Nat) (lvl e : Level) (l : Lines) :
    ∃ ch' : Channel, ch'.HoldsPayload d ∧ (ch.inState 5#4 k lvl e).TicksTo l (ch'.inState 8#4 0 false false) := by
  obtain ⟨hlen, hread⟩ := h.readRange
  have hroom := h.room
  have hpred : ch.rxLen.toNat - 1 = d.length := by omega
  rw [hm, hn, Memory.readRange_succ] at hread
  obtain ⟨hpayload, hlast⟩ := List.append_inj' hread rfl
  have hsum : xorFold (ch.rxBuf.readRange (ch.rxLen.toNat - 1)) = ch.rxBuf.read (ch.rxLen.toNat - 1) := by
    rw [hpred, hpayload, List.singleton_inj.1 hlast]
    rfl
  have hstrip : ch.strip.HoldsPayload d := by
    have hlen' : ch.strip.rxLen.toNat = d.length := by rw [Channel.strip_rxLen]; bv_omega
    refine ⟨by rw [hlen', Channel.strip_cfg]; omega, hlen', ?_⟩
    rw [Channel.strip_rxBuf, hpred]
    exact (Memory.readRange_congr fun i hi => Memory.read_write_of_ne _ _ hi.ne').trans hpayload
  exact ⟨ch.strip, hstrip, ticksTo_rxChecksum_accept (by omega) (by omega) hsum⟩

end Sys2Proof.Machine

/-! ### The round trip (R169) -/

namespace Sys2Proof.Machine

open Sys2Proof.Claims

variable {s t : State} {a b c k n : Nat} {ch cha chb : Channel} {d : List Byte} {m : Memory} {lvl : Level}

/-- Both ends go through the preamble in step, one symbol a period. -/
theorem RunsTo.preamble (h : RunsTo s a b n (cha.inState 9#4 0 true true) (chb.inState 2#4 0 true false)) (hk : k ≤ 3) :
    RunsTo s a b (n + k) (cha.inState 9#4 k (preambleSymbol k) true) (chb.inState 2#4 k (preambleSymbol k) false) := by
  induction k with
  | zero => exact h
  | succ k ih =>
    have hk3 : k < 3 := hk
    exact (ih hk3.le).next (ticksTo_txStart_next (by omega)) (ticksTo_rxStart_next hk3)

/-- The sender drives a bit and the receiver stores it, one bit a period. -/
theorem RunsTo.data (hroom : cha.txLen.toNat < cha.cfg.cap.bytes)
    (h : RunsTo s a b n ((cha.sending 0).inState 9#4 4 true true) (chb.inState 3#4 0 true false))
    (hrx : chb.Received cha.txBuf cha.txLen.toNat 0) (hc : c + 1 < 8 * cha.txLen.toNat) :
    ∃ chb' : Channel, chb'.Received cha.txBuf cha.txLen.toNat (c + 1) ∧
      RunsTo s a b (n + 1 + c) ((cha.sending (c + 1)).inState 10#4 c (cha.txBit c) true)
        (chb'.inState 3#4 (c + 1) true false) := by
  induction c with
  | zero =>
    obtain ⟨chb', hrx', hb⟩ := hrx.tick (by omega) true false
    exact ⟨chb', hrx', h.next ticksTo_txStart_firstBit hb⟩
  | succ c ih =>
    obtain ⟨chb', hrx', hrun⟩ := ih (by omega)
    obtain ⟨chb'', hrx'', hb⟩ := hrx'.tick (by omega) true false
    exact ⟨chb'', hrx'', hrun.next (ticksTo_txChar_nextBit hroom hc) hb⟩

/-- Both ends go through the postamble in step. -/
theorem RunsTo.postamble (h : RunsTo s a b n (cha.inState 12#4 0 true false) (chb.inState 4#4 0 true false))
    (hk : k ≤ 2) : RunsTo s a b (n + k) (cha.inState 12#4 k (postambleSymbol k) false)
      (chb.inState 4#4 k (postambleSymbol k) false) := by
  induction k with
  | zero => exact h
  | succ k ih =>
    have hk2 : k < 2 := hk
    exact (ih hk2.le).next (ticksTo_txAck_next (by omega)) (ticksTo_rxAck_next hk2)

/-- The preamble of a fault-free exchange from an idle link, five periods long. -/
theorem runsTo_preamble_end (h : IdleLink s a b cha chb) (hr : cha.txReady = true) :
    RunsTo s a b 5 ((cha.sending 0).inState 9#4 4 true true) (chb.rxClear.inState 3#4 0 true false) := by
  have hfirst := (Linked.of_idleLink h).runsTo.next (ticksTo_ready_send h.ready.1 h.low.2.2.2 hr)
    (ticksTo_ready_receive h.ready.2)
  exact (hfirst.preamble le_rfl).next (ticksTo_txStart_next (by decide)) ticksTo_rxStart_last

/-- The data of a fault-free exchange, a period for each bit of the frame. -/
theorem RunsTo.data_end (hroom : cha.txLen.toNat < cha.cfg.cap.bytes) (hlen : 1 ≤ cha.txLen.toNat)
    (h : RunsTo s a b n ((cha.sending 0).inState 9#4 4 true true) (chb.inState 3#4 0 true false))
    (hrx : chb.Received cha.txBuf cha.txLen.toNat 0) :
    ∃ (chb' : Channel) (d : Level), chb'.Received cha.txBuf cha.txLen.toNat (8 * cha.txLen.toNat) ∧
      RunsTo s a b (n + 8 * cha.txLen.toNat) ((cha.sending (8 * cha.txLen.toNat)).inState 11#4 0 d true)
        (chb'.inState 3#4 (8 * cha.txLen.toNat) true false) := by
  obtain ⟨c, hc⟩ : ∃ c, 8 * cha.txLen.toNat = c + 2 := ⟨8 * cha.txLen.toNat - 2, by omega⟩
  obtain ⟨chb', hrx', hrun⟩ := RunsTo.data hroom h hrx (c := c) (by omega)
  obtain ⟨chb'', hrx'', hb⟩ := hrx'.tick (by omega) true false
  have hlast := hrun.next (ticksTo_txChar_lastBit hroom hc.symm) hb
  rw [show n + 1 + c + 1 = n + (c + 2) by omega] at hlast
  rw [hc]
  exact ⟨chb'', _, hrx'', hlast⟩

/-- The postamble, the receiver's check and the sender's clean-up, six periods long. -/
theorem RunsTo.delivery (hrun : RunsTo s a b k (cha.inState 11#4 0 lvl true) (chb.inState 3#4 (8 * n) true false))
    (hrx : chb.Received m n (8 * n)) (hn : n = d.length + 1) (hd : 1 ≤ d.length) (hm : m.readRange n = frame d) :
    ∃ chb' : Channel, chb'.HoldsPayload d ∧
      RunsTo s a b (k + 6) (cha.sent.inState 1#4 0 false false) (chb'.inState 8#4 1 false false) := by
  obtain ⟨chb', hpay, hb⟩ := hrx.accept hn hd hm 0 false false ⟨false, false⟩
  have hne : chb'.rxLen ≠ 0#8 := by
    intro h0
    have hlen := hpay.len
    rw [h0, BitVec.toNat_ofNat] at hlen
    omega
  have hpost := hrun.next ticksTo_txEnd (ticksTo_rxChar_postamble (by omega))
  have hcheck := (hpost.postamble le_rfl).next (ticksTo_txAck_next (by decide)) ticksTo_rxAck_last
  exact ⟨chb', hpay, (hcheck.next ticksTo_txAck_last hb).next ticksTo_txDone (ticksTo_rxDone_hold hne)⟩

/-- `GET` returns the payload a channel in `RX_DONE` holds (R185). -/
theorem deliver_get_message (hc : s.chans[c]? = some ch) (hq : ch.state = Code.rxDone) (h : ch.HoldsPayload d) :
    ∃ u, deliver s (.host c [0x04#8]) = .next u ∧ u.out.resp = some (.message d) := by
  have hself : (s.select c).self = some ch := hc
  have hexec : deliver s (.host c [0x04#8]) =
      .next ((s.select c).finish { ch with rxLen := 0#8 } (some (.message (ch.rxBuf.readRange ch.rxLen.toNat))) none) :=
    (onHost_eq hself _).trans ((if_neg (not_not_intro hq)).trans (if_pos h.room))
  exact ⟨_, hexec, by rw [State.finish_out, h.len, h.bytes]⟩

/-- Settles O60: preamble, data and postamble of the one exchange, each an induction over its periods, from an idle link
to `RX_DONE`. -/
theorem roundTripDeliversPayload : Obligations.RoundTripDeliversPayload := by
  intro s a b cha chb d hidle hd hcapA hcapB _ hr hlen hframe _ hwf
  have hrx : chb.rxClear.Received cha.txBuf cha.txLen.toNat 0 := Channel.received_rxClear _ (by omega) hwf
  obtain ⟨chb', lvl, hrx', hdata⟩ := (runsTo_preamble_end hidle hr).data_end (by omega) (by omega) hrx
  obtain ⟨chb'', hpay, hrun⟩ := hdata.delivery hrx' hlen hd (hlen ▸ hframe)
  rw [hlen, show 5 + 8 * (d.length + 1) + 6 = 8 * (d.length + 1) + 11 by omega] at hrun
  obtain ⟨t, ht, hlink⟩ := hrun
  exact ⟨t, _, _, ht, hlink.left.get, hlink.right.get, rfl, rfl, rfl, rfl, rfl, hpay.len, hpay.bytes,
    deliver_get_message hlink.right.get rfl ⟨hpay.room, hpay.len, hpay.bytes⟩⟩

end Sys2Proof.Machine

/-! PROOFS, family 44_host_ops: the bound on a transmission, `PUT`'s phases, and the other host commands
(spec/44_host_ops.md). -/

/-! ### The bound on a transmission (R190) -/

namespace Sys2Proof.Machine

variable {s t : State} {ch ch' : Channel} {l : Lines} {i : Instr} {e : Event} {c : Nat}

/-- The tick steps that a transmission still takes where nothing goes wrong: what is left of the preamble, of the frame's
`8 * L` bits and of the postamble, then `TX_END` and `TX_DONE` (R165, R170). `TX_DONE` and `TX_ERR` are its last step. -/
def Channel.ticksLeft (ch : Channel) : Nat :=
  if ch.state = Code.txStart then 8 * ch.txLen.toNat + 10 - ch.tis
  else if ch.state = Code.txChar then 8 * ch.txLen.toNat + 6 - ch.txCursor
  else if ch.state = Code.txEnd then 6
  else if ch.state = Code.txAck then 5 - ch.tis
  else 1

theorem Channel.ticksLeft_txStart (hq : ch.state = 9#4) : ch.ticksLeft = 8 * ch.txLen.toNat + 10 - ch.tis := by
  simp [Channel.ticksLeft, hq]

theorem Channel.ticksLeft_txChar (hq : ch.state = 10#4) : ch.ticksLeft = 8 * ch.txLen.toNat + 6 - ch.txCursor := by
  simp [Channel.ticksLeft, hq]

theorem Channel.ticksLeft_txEnd (hq : ch.state = 11#4) : ch.ticksLeft = 6 := by simp [Channel.ticksLeft, hq]

theorem Channel.ticksLeft_txAck (hq : ch.state = 12#4) : ch.ticksLeft = 5 - ch.tis := by simp [Channel.ticksLeft, hq]

theorem Channel.ticksLeft_last (hq : ch.state ∈ [13#4, 14#4]) : ch.ticksLeft = 1 := by
  have hq : ch.state = 13#4 ∨ ch.state = 14#4 := by simpa using hq
  rcases hq with hq | hq <;> simp [Channel.ticksLeft, hq]

/-- A channel that meets its invariants while a transmission is in progress. -/
structure Channel.Busy (ch : Channel) : Prop where
  control : ch.ControlOk
  cursors : ch.CursorsOk
  busy : ch.txInProgress = true

theorem Channel.Busy.transmitting (h : ch.Busy) : ch.transmitting := h.control.busy.1 h.busy

theorem Channel.Busy.ticksLeft_le (h : ch.Busy) : ch.ticksLeft ≤ 8 * ch.txLen.toNat + 10 := by
  have hlen := h.cursors.sending h.transmitting
  unfold Channel.ticksLeft
  (repeat' split) <;> omega

theorem Channel.Busy.ticksLeft_pos (h : ch.Busy) : 0 < ch.ticksLeft := by
  have bound := h.cursors.txBound
  unfold Channel.ticksLeft
  split
  next hq => have := h.cursors.txStart hq; omega
  split
  next => omega
  split
  next => omega
  split
  next hq => have := h.cursors.txAck hq; omega
  next => omega

/-- A tick rule, run in the state that selects it, ends the transmission or brings its end nearer. -/
theorem RuleBranch.ticksLeft_lt (hb : RuleBranch l ch i ch') (hi : encode i = .tick ch.state) (h : ch.Busy)
    (hbusy : ch'.txInProgress = true) : ch'.ticksLeft < ch.ticksLeft := by
  have hq := h.transmitting
  cases hb <;> simp only [encode, Encoded.tick.injEq] at hi
  case notinit | readyReceive | readySend | readyWait | rxStartAbort | rxStartLast | rxStartNext | rxCharBit |
      rxCharByte | rxCharFall | rxCharAbort | rxCharErr | rxAckLast | rxAckNext | rxAckAbort | rxAckErr |
      rxChecksumAccept | rxChecksumErr | rxAbort | rxErr | rxDoneRelease | rxDoneHold =>
    simp [← hi] at hq
  case txStartAbandon | txCharAbandon | txErr | txDone => simp at hbusy
  case txStartNext ht =>
    rw [Channel.ticksLeft_txStart hi.symm, Channel.ticksLeft_txStart (by simp [← hi]), Channel.stay_tis,
      Channel.stay_txLen, Channel.drive_tis, Channel.drive_txLen]
    omega
  case txStartLast =>
    obtain ⟨ht, -⟩ := h.cursors.txStart hi.symm
    rw [Channel.ticksLeft_txStart hi.symm, Channel.ticksLeft_txChar (by simp), Channel.goto_txCursor,
      Channel.goto_txLen, Channel.drive_txCursor, Channel.drive_txLen]
    dsimp only
    omega
  case txCharNext =>
    obtain ⟨-, hc⟩ := h.cursors.txChar hi.symm
    rw [Channel.ticksLeft_txChar hi.symm, Channel.ticksLeft_txChar (by simp [← hi]), Channel.stay_txCursor,
      Channel.stay_txLen, Channel.drive_txCursor, Channel.drive_txLen]
    dsimp only
    omega
  case txCharLast hc =>
    rw [Channel.ticksLeft_txChar hi.symm, Channel.ticksLeft_txEnd (by simp)]
    omega
  case txCharErr =>
    obtain ⟨-, hc⟩ := h.cursors.txChar hi.symm
    rw [Channel.ticksLeft_txChar hi.symm, Channel.ticksLeft_last (by simp)]
    omega
  case txEnd =>
    rw [Channel.ticksLeft_txEnd hi.symm, Channel.ticksLeft_txAck (by simp), Channel.goto_tis]
    decide
  case txAckNext ht =>
    rw [Channel.ticksLeft_txAck hi.symm, Channel.ticksLeft_txAck (by simp [← hi]), Channel.stay_tis, Channel.drive_tis]
    omega
  case txAckErr | txAckLast =>
    have ht := h.cursors.txAck hi.symm
    rw [Channel.ticksLeft_txAck hi.symm, Channel.ticksLeft_last (by simp)]
    omega

theorem ChannelMove.keeps_busy (hm : ChannelMove e c ch ch') (h : ch.Busy) (hbusy : ch'.txInProgress = true) :
    ch'.Busy :=
  ⟨hm.keeps_controlOk h.control, hm.keeps_cursorsOk h.control h.cursors, hbusy⟩

/-- No move puts the end of a transmission off: while it is in progress, only the tick rules write what it depends on. -/
theorem ChannelMove.ticksLeft_le (hm : ChannelMove e c ch ch') (h : ch.Busy) (hbusy : ch'.txInProgress = true) :
    ch'.ticksLeft ≤ ch.ticksLeft := by
  cases hm with
  | begin => cases hbusy
  | commit d he hb => exact absurd h.busy (by simp [hb])
  | tick l i r hd hr hg =>
    exact ((tickRule_branch hr hg).ticksLeft_lt (encode_of_decodeTick hd) h hbusy).le
  | flip x =>
    obtain ⟨inj, hx⟩ := ch.armFlip_eq_inject x
    exact hx ▸ le_rfl
  | same | lock | wait | get | issue | latch => exact le_rfl

/-- A tick event of the channel ends the transmission or brings its end nearer, whatever the channel samples. -/
theorem deliver_tick_ticksLeft_lt (h : deliver s (.tick c) = .next t) (hc : s.chans[c]? = some ch)
    (hc' : t.chans[c]? = some ch') (hch : ch.Busy) (hbusy : ch'.txInProgress = true) : ch'.ticksLeft < ch.ticksLeft := by
  obtain ⟨x, i, hs, hd, h⟩ := deliverTick_next (s := s.select c) h
  obtain rfl := Option.some.inj (hs.symm.trans hc)
  obtain ⟨r, hr⟩ := tickRule_of_decodeTick hd
  rw [exec_of_tickRule _ hr] at h
  obtain ⟨_, hs', hg, rfl⟩ := onTick_next h
  obtain rfl := Option.some.inj (hs.symm.trans hs')
  obtain rfl := Option.some.inj ((State.afterTick_self hs _).symm.trans hc')
  exact (tickRule_branch hr hg).ticksLeft_lt (encode_of_decodeTick hd) hch hbusy

/-- No event removes a channel. -/
theorem deliver_keeps_channel (h : deliver s e = .next t) (hc : s.chans[c]? = some ch) :
    ∃ ch', t.chans[c]? = some ch' := by
  have hlen : t.chans.length = s.chans.length := by
    rcases (deliver_next h).moves with ⟨hchans, -⟩ | ⟨_, _, -, -, hchans, -⟩ <;> simp [hchans]
  have hlt : c < t.chans.length := hlen ▸ (List.getElem?_eq_some_iff.1 hc).1
  exact ⟨_, List.getElem?_eq_getElem hlt⟩

/-- One event leaves a transmission that can still end within the tick events left to come, or ends it. -/
theorem deliver_ticksLeft_le_count {es : List Event} (h : deliver s e = .next t) (hc : s.chans[c]? = some ch)
    (hc' : t.chans[c]? = some ch') (hch : ch.Busy) (hbusy : ch'.txInProgress = true)
    (hcount : ch.ticksLeft ≤ (e :: es).count (.tick c)) : ch'.ticksLeft ≤ es.count (.tick c) := by
  by_cases he : e = .tick c
  case pos =>
    subst he
    have hlt := deliver_tick_ticksLeft_lt h hc hc' hch hbusy
    rw [List.count_cons_self] at hcount
    omega
  case neg =>
    rw [List.count_cons_of_ne he] at hcount
    exact ((deliver_move h hc hc').ticksLeft_le hch hbusy).trans hcount

/-- The tick steps a transmission still takes bound the tick events it outlasts. -/
theorem deliverAll_ends_transmission (es : List Event) (hc : s.chans[c]? = some ch) (hch : ch.Busy)
    (hcount : ch.ticksLeft ≤ es.count (.tick c)) (h : deliverAll es s = .next t) :
    ∃ (k : Nat) (u : State) (chu : Channel), k ≤ es.length ∧ deliverAll (es.take k) s = .next u ∧
      u.chans[c]? = some chu ∧ chu.txInProgress = false := by
  induction es generalizing s ch with
  | nil => exact absurd (hch.ticksLeft_pos.trans_le hcount) (by simp)
  | cons e es ih =>
    rw [deliverAll] at h
    split at h
    next v hv =>
      obtain ⟨chv, hcv⟩ := deliver_keeps_channel hv hc
      cases hbusy : chv.txInProgress with
      | false => exact ⟨1, v, chv, by simp, by simp [deliverAll, hv], hcv, hbusy⟩
      | true =>
        obtain ⟨k, u, chu, hk, hu, hcu, hend⟩ := ih hcv ((deliver_move hv hc hcv).keeps_busy hch hbusy)
          (deliver_ticksLeft_le_count hv hc hcv hch hbusy hcount) h
        exact ⟨k + 1, u, chu, by simpa using hk, by simpa [deliverAll, hv] using hu, hcu, hend⟩
    next => cases h
    next => cases h

/-- Settles O55, by induction on the events: `Channel.ticksLeft` falls at each tick event of the channel, rises at no
event, and starts within the bound. -/
theorem transmissionEndsWithinBound : Obligations.TransmissionEndsWithinBound := by
  intro es s t c ch hc hctl hcur hbusy hcount h
  have hch : ch.Busy := ⟨hctl, hcur, hbusy⟩
  exact deliverAll_ends_transmission es hc hch (hch.ticksLeft_le.trans hcount) h

end Sys2Proof.Machine

/-! ### Host steps that leave the channel as it was -/

namespace Sys2Proof.Machine

variable {s : State} {ch : Channel} {c : Nat} {i : Instr} {bytes : List Byte}

/-- Putting a channel back as it was changes the outcome only. -/
theorem State.finish_unchanged (hs : s.self = some ch) (r : Option Response) (l : Option Label) :
    s.finish ch r l = { s with out := { chan := s.active, resp := r, label := l } } := by
  obtain ⟨hlt, rfl⟩ := List.getElem?_eq_some_iff.1 hs
  rw [State.finish, List.set_getElem_self]

/-- A command string that decodes runs its command on its channel (R71). -/
theorem deliver_host_eq (hd : decodeHost bytes = some i) (s : State) (c : Nat) :
    deliver s (.host c bytes) = exec i (s.select c) := deliverCommand_eq hd

/-- A reserved code and a malformed `PUT` string decode to no command (R75). -/
theorem decodeHost_eq_none_of_refusedString (h : Claims.refusedString bytes) : decodeHost bytes = none := by
  refine Option.eq_none_iff_forall_ne_some.2 fun i hi => ?_
  rcases h with ⟨b, rest, rfl, hb⟩ | ⟨rest, rfl, hlen⟩
  case inl =>
    rcases decodeHost_cases hi with ⟨h, -⟩ | ⟨_, _, h, -⟩ | ⟨h, -⟩ | ⟨h, -⟩ | ⟨h, -⟩ <;> cases h <;> simp at hb
  case inr =>
    cases rest with
    | nil => cases hi
    | cons n d =>
      rw [decodeHost_put, if_neg (by simpa [Nat.add_comm] using hlen)] at hi
      cases hi

/-- A string that does not decode is answered by the refusal and changes nothing else (R75, R187). -/
theorem deliver_host_refused (hc : s.chans[c]? = some ch) (hd : decodeHost bytes = none) :
    deliver s (.host c bytes) =
      .next { s with active := c, out := { chan := c, resp := some .refusedCode, label := none } } := by
  have hself : (s.select c).self = some ch := hc
  calc deliver s (.host c bytes) = refuseCommand (s.select c) := by simp [deliver, deliverCommand, hd]
    _ = .next ((s.select c).finish ch (some .refusedCode) none) := onHost_eq hself _
    _ = _ := by rw [State.finish_unchanged hself]; rfl

/-- Settles O4: a refused string decodes to no command. -/
theorem reservedAndMalformedCommandsAreRefused : Obligations.ReservedAndMalformedCommandsAreRefused :=
  fun _ _ _ _ hc h => ⟨deliver_host_refused hc (decodeHost_eq_none_of_refusedString h), rfl⟩

/-- Settles O14: `RDY` puts its channel back as it was. -/
theorem rdyAnswersMessageWaiting : Obligations.RdyAnswersMessageWaiting := fun s ch hs =>
  ⟨(onHost_eq hs _).trans (by rw [State.finish_unchanged hs]; rfl), rfl, rfl⟩

/-- Settles O10: the branch of R181 for a channel that has begun. -/
theorem laterBeginChangesNothing : Obligations.LaterBeginChangesNothing := by
  intro s ch hs hi
  rw [exec, execBegin, onHost_eq hs, if_pos hi, State.finish_unchanged hs]

end Sys2Proof.Machine

/-! ### `STATUS` (R37, R186) -/

namespace Sys2Proof.Machine

variable {ch : Channel}

/-- The low byte of the status word, bit by bit: the state code below the four flags. -/
theorem Channel.statusWord_getLsbD (ch : Channel) {j : Nat} (hj : j < 8) : ch.statusWord.getLsbD j =
    if j < 4 then ch.state.getLsbD j
    else [ch.initialized, ch.txReady, ch.txInProgress, ch.putWait].getD (j - 4) false := by
  refine BitVec.getLsbD_append.trans ?_
  rw [if_pos (by omega)]
  simp only [BitVec.getLsbD_append, BitVec.getLsbD_ofBool]
  interval_cases j <;> simp

theorem Channel.statusWord_state (ch : Channel) : ch.statusWord.extractLsb' 0 4 = ch.state := by
  refine BitVec.eq_of_getLsbD_eq fun j hj => ?_
  rw [BitVec.getLsbD_extractLsb', Nat.zero_add, ch.statusWord_getLsbD (by omega), if_pos hj, decide_eq_true hj,
    Bool.true_and]

theorem Channel.statusWord_rxLen (ch : Channel) : ch.statusWord.extractLsb' 8 8 = ch.rxLen :=
  BitVec.extractLsb'_append_eq_left

/-- Settles O17, field by field of the word. -/
theorem statusReturnsStatusWord : Obligations.StatusReturnsStatusWord := fun s ch hs =>
  ⟨ch.statusWord, (onHost_eq hs _).trans (by rw [State.finish_unchanged hs]), ch.statusWord_state,
    ch.statusWord_getLsbD (by decide), ch.statusWord_getLsbD (by decide), ch.statusWord_getLsbD (by decide),
    ch.statusWord_getLsbD (by decide), ch.statusWord_rxLen, rfl⟩

end Sys2Proof.Machine

/-! ### The first `BEGIN` (R181) -/

namespace Sys2Proof.Machine

variable {s : State} {ch : Channel}

theorem execBegin_first (hs : s.self = some ch) (hi : ch.initialized = false) :
    execBegin s = .next ((s.finish ch.begun (some .ok) none).register ch.cfg.timer) := by
  rw [execBegin, onHost_eq hs, if_neg (by simp [hi])]

/-- After the first `BEGIN` with no `PUT` pending, `STATUS` shows `READY` and `INIT` alone (R230). -/
theorem Channel.begun_statusWord (hp : ch.putPending = none) : ch.begun.statusWord = 0x0011#16 := by
  simp [Channel.statusWord, Channel.putWait, hp]

/-- Settles O9: `Channel.begun` is the column of R230, and its one byte stored is `rx_buf[0]`. -/
theorem firstBeginInitializesChannel : Obligations.FirstBeginInitializesChannel := by
  intro s ch hs hi
  exact ⟨_, ch.begun, execBegin_first hs hi, State.self_of_chans_set hs rfl rfl, rfl, rfl,
    fun hwf => Memory.read_write_same hwf 0 Config.term,
    fun a ha => Memory.read_write_of_ne ch.rxBuf Config.term ha.symm,
    rfl, rfl, Channel.begun_statusWord⟩

end Sys2Proof.Machine

/-! ### `PUT`'s issue phase (R182, R188) -/

namespace Sys2Proof.Machine

variable {s : State} {ch : Channel} {c k : Nat} {d : List Byte}

theorem execPut_uninit (hs : s.self = some ch) (hi : ch.initialized = false) :
    execPut d s = .next (s.finish ch (some .rejUninit) (some (.misuse .put))) := by
  rw [execPut, onHost_eq hs, if_pos (by simp [hi])]

theorem execPut_tooLong (hs : s.self = some ch) (hi : ch.initialized = true) (hl : ch.cfg.cap.bytes - 2 < d.length) :
    execPut d s = .next (s.finish ch (some .rejLen) (some (.putInvalid .len))) := by
  rw [execPut, onHost_eq hs, if_neg (by simp [hi]), if_pos hl]

theorem execPut_withTerm (hs : s.self = some ch) (hi : ch.initialized = true)
    (hl : d.length ≤ ch.cfg.cap.bytes - 2) (ht : Config.term ∈ d) :
    execPut d s = .next (s.finish ch (some .rejTerm) (some (.putInvalid .term))) := by
  rw [execPut, onHost_eq hs, if_neg (by simp [hi]), if_neg (Nat.not_lt.2 hl), if_pos ht]

/-- A `PUT` that passes the three tests takes the free lock, or waits for it. -/
theorem execPut_accepted (hs : s.self = some ch) (hi : ch.initialized = true) (hd : PayloadOk ch d) :
    (ch.putPending = none → execPut d s = .next (s.finish (ch.takeLock d) none none)) ∧
    (ch.putPending ≠ none → execPut d s = .next (s.finish { ch with waiters := ch.waiters ++ [d] } none none)) := by
  rw [execPut, onHost_eq hs, if_neg (by simp [hi]), if_neg (Nat.not_lt.2 hd.short), if_neg hd.noTerm]
  cases ch.putPending <;> simp

/-- Settles O11: the branches of R182 before the lock, in order. -/
theorem putRejectionsChangeNothing : Obligations.PutRejectionsChangeNothing := by
  intro s ch d hs
  simp only [← State.finish_unchanged hs]
  exact ⟨execPut_uninit hs, execPut_tooLong hs, execPut_withTerm hs⟩

theorem retryIssue_takes (hs : s.self = some ch) (hp : ch.putPending = none) (hw : ch.waiters[k]? = some d) :
    retryIssue s k = .next (s.finish { ch.takeLock d with waiters := ch.waiters.eraseIdx k } none none) := by
  simp [retryIssue, onHost_eq hs, hp, hw]

theorem retryIssue_held (hs : s.self = some ch) (hp : ch.putPending ≠ none) (k : Nat) :
    retryIssue s k = .next s.idle := by
  obtain ⟨d, hd⟩ := Option.ne_none_iff_exists'.1 hp
  simp [retryIssue, onHost_eq hs, hd]

/-- Settles O12: an accepted `PUT` and the retry of a waiting caller, each with the lock free and held. -/
theorem putIssueTakesOrAwaitsLock : Obligations.PutIssueTakesOrAwaitsLock :=
  ⟨fun _ _ _ hs hi hl ht => execPut_accepted hs hi ⟨hl, ht⟩,
    fun s c _ k _ hc hw => ⟨fun hp => retryIssue_takes (s := s.select c) hc hp hw,
      fun hp => retryIssue_held (s := s.select c) hc hp k⟩⟩

end Sys2Proof.Machine

/-! ### `PUT`'s commit phase (R162, R183) -/

namespace Sys2Proof.Machine

variable {s : State} {ch : Channel} {d : List Byte}

theorem commitPut_stages (hs : s.self = some ch) (hc : ch.commitEnabled = some d) (hl : d.length < ch.cfg.cap.bytes) :
    commitPut s = .next (s.finish (ch.stage d) (some .putTrue) none) := by
  simp [commitPut, onHost_eq hs, hc, hl]

theorem commitPut_held (hs : s.self = some ch) (hc : ch.commitEnabled = none) : commitPut s = .next s.idle := by
  simp [commitPut, onHost_eq hs, hc]

theorem commitEnabled_eq_none : ch.commitEnabled = none ↔ ch.txInProgress = true ∨ ch.putPending = none := by
  unfold Channel.commitEnabled
  split <;> simp_all

/-- The frame of a payload that `PUT` accepts has a length `tx_len` can hold. -/
theorem Channel.stage_txLen_toNat (hl : d.length ≤ ch.cfg.cap.bytes - 2) :
    (ch.stage d).txLen.toNat = d.length + 1 := by
  have hleast := ch.cfg.cap.atLeast
  have hmost := ch.cfg.cap.atMost
  rw [Channel.stage_txLen, BitVec.toNat_ofNat]
  omega

theorem frame_getD_payload (d : List Byte) {i : Nat} (hi : i < d.length) : (frame d).getD i 0#8 = d.getD i 0#8 :=
  List.getD_append d [checksum d] 0#8 i hi

theorem frame_getD_checksum (d : List Byte) : (frame d).getD d.length 0#8 = xorFold d := by
  rw [frame, List.getD_append_right _ _ _ _ le_rfl, Nat.sub_self]
  rfl

/-- Staging writes the frame from byte 0 on, and no byte past it. -/
theorem Channel.stage_read (hwf : ch.txBuf.wf) (d : List Byte) (a : Nat) :
    (ch.stage d).txBuf.read a = if a < d.length + 1 then (frame d).getD a 0#8 else ch.txBuf.read a := by
  rw [Channel.stage_txBuf, Memory.read_writeList hwf]
  simp

/-- Settles O13: the enabled commit stages the frame, and `commitEnabled` says when it is held. -/
theorem putCommitStagesFrame : Obligations.PutCommitStagesFrame := by
  intro s c ch hc
  have hself : (s.select c).self = some ch := hc
  refine ⟨fun d hb hp hl hwf => ?_, fun h => commitPut_held hself (commitEnabled_eq_none.2 h)⟩
  have hcap := ch.cfg.cap.atLeast
  refine ⟨_, ch.stage d, commitPut_stages hself (commitEnabled_eq_some.2 ⟨hb, hp⟩) (by omega), rfl, rfl,
    Channel.stage_txLen_toNat hl, fun i hi => ?_, ?_, fun a ha => ?_, rfl⟩
  · rw [Channel.stage_read hwf, if_pos (by omega), frame_getD_payload d hi]
  · rw [Channel.stage_read hwf, if_pos (by omega), frame_getD_checksum]
  · rw [Channel.stage_read hwf, if_neg (by omega)]

end Sys2Proof.Machine

/-! ### `GET` (R185, R189) -/

namespace Sys2Proof.Machine

variable {s : State} {ch : Channel} {c : Nat}

theorem execGet_message (hs : s.self = some ch) (hq : ch.state = Code.rxDone)
    (hl : ch.rxLen.toNat ≤ ch.cfg.cap.bytes) :
    execGet s =
      .next (s.finish { ch with rxLen := 0#8 } (some (.message (ch.rxBuf.readRange ch.rxLen.toNat))) none) := by
  rw [execGet, onHost_eq hs, if_neg (not_not_intro hq), if_pos hl]

theorem execGet_empty (hs : s.self = some ch) (hq : ch.state ≠ Code.rxDone) :
    execGet s =
      .next (s.finish ch (some (.message [])) (if ch.initialized then none else some (.misuse .get))) := by
  rw [execGet, onHost_eq hs, if_pos hq]

/-- Settles O15: the two branches of R185. -/
theorem getReturnsMessageOnce : Obligations.GetReturnsMessageOnce := by
  intro s ch hs
  rw [← State.finish_unchanged hs]
  exact ⟨execGet_message hs, execGet_empty hs⟩

/-- `RDY` keeps its channel and answers whether a message waits. -/
theorem deliver_rdy (hc : s.chans[c]? = some ch) :
    ∃ t, deliver s (.host c [0x03#8]) = .next t ∧ t.chans[c]? = some ch ∧
      t.out.resp = some (.readyIs ch.messageReady) := by
  have hself : (s.select c).self = some ch := hc
  exact ⟨_, (deliver_host_eq (i := .hostRdy) rfl s c).trans (onHost_eq hself _),
    State.self_of_chans_set hself rfl rfl, rfl⟩

/-- `GET` in `RX_DONE` leaves nothing to read and answers what there was. -/
theorem deliver_get (hc : s.chans[c]? = some ch) (hq : ch.state = Code.rxDone)
    (hl : ch.rxLen.toNat ≤ ch.cfg.cap.bytes) :
    ∃ t, deliver s (.host c [0x04#8]) = .next t ∧ t.chans[c]? = some { ch with rxLen := 0#8 } ∧
      t.out.resp = some (.message (ch.rxBuf.readRange ch.rxLen.toNat)) := by
  have hself : (s.select c).self = some ch := hc
  exact ⟨_, (deliver_host_eq (i := .hostGet) rfl s c).trans (execGet_message hself hq hl),
    State.self_of_chans_set hself rfl rfl, rfl⟩

/-- Settles O16: the first `GET` leaves `RX_DONE` with `rx_len = 0`, where a `GET` returns no byte. -/
theorem secondGetReturnsEmpty : Obligations.SecondGetReturnsEmpty := by
  intro s c ch hc hq hpos hl
  obtain ⟨t, hst, hct, ht⟩ := deliver_rdy hc
  obtain ⟨u, htu, hcu, hu⟩ := deliver_get hct hq hl
  obtain ⟨v, huv, hcv, hv⟩ := deliver_get hcu hq (Nat.zero_le _)
  obtain ⟨w, hvw, -, hw⟩ := deliver_rdy hcv
  have before : ch.messageReady = true := decide_eq_true ⟨hq, hpos⟩
  have after : ({ ch with rxLen := 0#8 } : Channel).messageReady = false := by simp [Channel.messageReady]
  exact ⟨t, u, v, w, hst, before ▸ ht, htu, hu, huv, hv, hvw, after ▸ hw⟩

end Sys2Proof.Machine

/-! PROOFS, family 60_exceptions: the registry and its tick events, what a step may touch and what it may depend on, and the
cases of a channel before `BEGIN` and of two staged messages (spec/60_exceptions.md). -/

/-! ### A step changes only its own channel (R217) -/

namespace Sys2Proof.Machine

variable {s t : State} {ch ch' : Channel} {e : Event} {c : Nat}

/-- No move changes the configuration (R32). -/
theorem ChannelMove.cfg_eq (hm : ChannelMove e c ch ch') : ch'.cfg = ch.cfg := by
  cases hm with
  | tick l i r hd hr hg => exact (tickRule_branch hr hg).sameHostFields.cfg
  | flip x => exact ch.armFlip_cfg x
  | same | begin | lock | wait | get | issue | commit | latch => rfl

/-- Replacing a channel by one of the same configuration keeps the list of configurations. -/
theorem map_cfg_set {chans : List Channel} (hc : chans[c]? = some ch) (hcfg : ch'.cfg = ch.cfg) :
    (chans.set c ch').map (·.cfg) = chans.map (·.cfg) := by
  obtain ⟨hlt, rfl⟩ := List.getElem?_eq_some_iff.1 hc
  rw [List.map_set, hcfg, ← List.map_set, List.set_getElem_self]

/-- Settles O40: an event replaces at most the channel it acts on, by a move, which keeps the configuration. -/
theorem stepsTouchOnlyTheirOwnChannel : Obligations.StepsTouchOnlyTheirOwnChannel := by
  intro s t e h
  obtain ⟨hn, -, hmoves⟩ := deliver_next h
  rcases hmoves with ⟨hchans, -⟩ | ⟨ch, ch', hch, hm, hchans, -⟩ <;> rw [hchans]
  · exact ⟨hn, rfl, fun _ _ => rfl⟩
  · exact ⟨hn, map_cfg_set hch hm.cfg_eq, fun _ hc => List.getElem?_set_ne hc.symm⟩

end Sys2Proof.Machine

/-! ### The registry (R215) -/

namespace Sys2Proof.Machine

variable {s t : State} {ch ch' : Channel} {e : Event} {a c k : Nat}

/-- Channel `c` of the system has begun, and `k` is its tick source. -/
def State.BegunOn (s : State) (c k : Nat) : Prop :=
  ∃ ch : Channel, s.chans[c]? = some ch ∧ k = ch.cfg.timer ∧ ch.initialized = true

/-- The registry invariant in one membership condition: the registrations are the begun channels' own. -/
theorem State.registryOk_iff :
    s.RegistryOk ↔ (s.registry.map (·.chan)).Nodup ∧ ∀ r, r ∈ s.registry ↔ s.BegunOn r.chan r.timer := by
  constructor
  case mp =>
    intro h
    refine ⟨h.once, fun ⟨k, c⟩ => ⟨h.own ⟨k, c⟩, ?_⟩⟩
    rintro ⟨ch, hch, htimer, hi⟩
    obtain ⟨⟨k', c'⟩, hr', hchan⟩ := List.mem_map.1 (h.every c ch hch hi)
    obtain rfl : c' = c := hchan
    obtain ⟨x, hx, htimer', -⟩ := h.own _ hr'
    obtain rfl := Option.some.inj (hch.symm.trans hx)
    obtain rfl : k = k' := htimer.trans htimer'.symm
    exact hr'
  case mpr =>
    rintro ⟨hnodup, hmem⟩
    refine ⟨hnodup, fun r hr => (hmem r).1 hr, fun c ch hch hi => ?_⟩
    exact List.mem_map.2 ⟨⟨ch.cfg.timer, c⟩, (hmem _).2 ⟨ch, hch, rfl, hi⟩, rfl⟩

/-- The begun channels once channel `a` has been replaced by `ch'`. -/
theorem begunOn_of_chans_set (ha : s.chans[a]? = some ch) (hchans : t.chans = s.chans.set a ch') :
    t.BegunOn c k ↔ if c = a then k = ch'.cfg.timer ∧ ch'.initialized = true else s.BegunOn c k := by
  obtain ⟨hlt, -⟩ := List.getElem?_eq_some_iff.1 ha
  unfold State.BegunOn
  split
  next hc => subst hc; simp [hchans, hlt]
  next hc => rw [hchans, List.getElem?_set_ne (Ne.symm hc)]

theorem begunOn_self (ha : s.chans[a]? = some ch) :
    s.BegunOn a k ↔ k = ch.cfg.timer ∧ ch.initialized = true := by
  simp [State.BegunOn, ha]

/-- What an event does to the registry and to the begun channels: nothing, or it begins one channel and appends its
registration. -/
theorem deliver_registry (h : deliver s e = .next t) :
    (t.registry = s.registry ∧ ∀ c k, t.BegunOn c k ↔ s.BegunOn c k) ∨
    ∃ r : Registration, (∀ k, ¬ s.BegunOn r.chan k) ∧ t.registry = s.registry ++ [r] ∧
      ∀ c k, t.BegunOn c k ↔ s.BegunOn c k ∨ ⟨k, c⟩ = r := by
  rcases (deliver_next h).moves with ⟨hchans, hreg⟩ | ⟨ch, ch', hch, hm, hchans, hreg⟩
  · exact .inl ⟨hreg, fun c k => by simp only [State.BegunOn, hchans]⟩
  · have hset (c k : Nat) := begunOn_of_chans_set (c := c) (k := k) hch hchans
    rw [hm.cfg_eq] at hset
    rcases hreg with ⟨hreg, hi⟩ | ⟨hi, hi', hreg⟩
    case inl =>
      refine .inl ⟨hreg, fun c k => ?_⟩
      rw [hset, hi]
      split
      next hc => rw [hc, begunOn_self hch]
      next => rfl
    case inr =>
      refine .inr ⟨_, fun k => by simp [begunOn_self hch, hi], hreg, fun c k => ?_⟩
      rw [hset, Registration.mk.injEq]
      split
      next hc => simp [hc, begunOn_self hch, hi, hi']
      next hc => simp [hc]

theorem deliver_keeps_registryOk (hs : s.RegistryOk) (h : deliver s e = .next t) : t.RegistryOk := by
  rw [State.registryOk_iff] at hs ⊢
  obtain ⟨hnodup, hmem⟩ := hs
  rcases deliver_registry h with ⟨hreg, hbegun⟩ | ⟨r, hfresh, hreg, hbegun⟩ <;> rw [hreg]
  · exact ⟨hnodup, fun r' => (hmem r').trans (hbegun _ _).symm⟩
  · have hnew : r.chan ∉ s.registry.map (·.chan) := by
      intro hin
      obtain ⟨r', hr', hchan⟩ := List.mem_map.1 hin
      exact hfresh r'.timer (hchan ▸ (hmem r').1 hr')
    refine ⟨?_, fun r' => ?_⟩
    · rw [List.map_append, List.map_singleton]
      exact List.concat_eq_append ▸ hnodup.concat hnew
    · rw [hbegun, List.mem_append, List.mem_singleton, hmem]

/-- Settles O51: of all events only a first `BEGIN` begins a channel, and it appends that channel's one registration. -/
theorem stepKeepsRegistryInvariant : Obligations.StepKeepsRegistryInvariant := by
  intro s t hs h
  rcases step_next h with ⟨-, rfl⟩ | ⟨e, rest, -, h⟩
  · exact ⟨hs.once, hs.own, hs.every⟩
  · exact deliver_keeps_registryOk (s := { s with queue := rest }) ⟨hs.once, hs.own, hs.every⟩ h

end Sys2Proof.Machine

/-! ### Channels interact only through their wires (R56, R217) -/

namespace Sys2Proof.Machine

variable {s s' : State} {ch : Channel} {i : Instr}

/-- What an instruction may read of a system: its channel `ch`, the index and the count of drawn levels, and what the
channel at the other end of the wires drives. -/
structure SameInputs (s s' : State) (ch : Channel) : Prop where
  self : s.self = some ch
  self' : s'.self = some ch
  active : s'.active = s.active
  draws : s'.draws = s.draws
  peer : (s'.chans[ch.cfg.peer]?).map (fun p => (p.driven, p.txOut, p.txEn)) =
    (s.chans[ch.cfg.peer]?).map (fun p => (p.driven, p.txOut, p.txEn))

/-- Where the first of two steps completes, the second does, with the same channel, outcome and count of drawn levels. -/
def SameEffect (o o' : Host.Outcome State Fault Refusal) : Prop :=
  ∀ t, o = .next t → ∃ t', o' = .next t' ∧ t'.self = t.self ∧ t'.out = t.out ∧ t'.draws = t.draws

/-- A channel's wires, as a function of the output registers at their other end. -/
theorem State.wire_eq (s : State) (ch : Channel) :
    s.wire ch = ((s.chans[ch.cfg.peer]?).map (fun p => (p.driven, p.txOut, p.txEn))).bind
      fun p => if p.1 then some { rx := p.2.1, en := p.2.2 } else none := by
  unfold State.wire
  cases s.chans[ch.cfg.peer]? <;> rfl

theorem SameInputs.wire (h : SameInputs s s' ch) : s'.wire ch = s.wire ch := by
  rw [s'.wire_eq, s.wire_eq, h.peer]

theorem SameInputs.sampled (h : SameInputs s s' ch) : s'.sampled ch = s.sampled ch := by
  simp only [State.sampled, State.wireLevels, h.wire, h.draws]

theorem SameInputs.drawsAfterSample (h : SameInputs s s' ch) : s'.drawsAfterSample ch = s.drawsAfterSample ch := by
  simp only [State.drawsAfterSample, State.drawsAfterRead, h.wire, h.draws]

theorem sameEffect_fault (f : Fault) (o : Host.Outcome State Fault Refusal) : SameEffect (.fault f) o := nofun

theorem State.finish_self (hs : s.self = some ch) (x : Channel) (r : Option Response) (l : Option Label) :
    (s.finish x r l).self = some x := State.self_of_chans_set hs rfl rfl

theorem SameInputs.finish (h : SameInputs s s' ch) (x : Channel) (r : Option Response) (l : Option Label) :
    SameEffect (.next (s.finish x r l)) (.next (s'.finish x r l)) := by
  rintro _ ⟨⟩
  refine ⟨_, rfl, ?_, by simp [h.active], h.draws⟩
  rw [State.finish_self h.self', State.finish_self h.self]

/-- Registering the channel adds nothing to what the step does to it. -/
theorem SameInputs.finish_register (h : SameInputs s s' ch) (x : Channel) (r : Option Response) (k : Nat) :
    SameEffect (.next ((s.finish x r none).register k)) (.next ((s'.finish x r none).register k)) := by
  rintro _ ⟨⟩
  obtain ⟨_, ⟨⟩, heffect⟩ := h.finish x r none _ rfl
  exact ⟨_, rfl, heffect⟩

theorem SameInputs.onTick (h : SameInputs s s' ch) (guard : Lines → Channel → Option Fault)
    (rule : Lines → Channel → Channel × Option Label) :
    SameEffect (onTick s guard rule) (onTick s' guard rule) := by
  intro t ht
  obtain ⟨x, hx, hg, rfl⟩ := onTick_next ht
  obtain rfl := Option.some.inj (h.self.symm.trans hx)
  refine ⟨_, onTick_eq h.self' (h.sampled ▸ hg), ?_, ?_, h.drawsAfterSample⟩
  · rw [State.afterTick_self h.self', State.afterTick_self h.self, h.sampled]
  · rw [State.afterTick_out, State.afterTick_out, h.active, h.sampled]

theorem SameInputs.execTick {r : TickRule} (h : SameInputs s s' ch) (hr : tickRule i = some r) :
    SameEffect (exec i s) (exec i s') := by
  rw [exec_of_tickRule s hr, exec_of_tickRule s' hr]
  exact h.onTick r.guard r.rule

theorem SameInputs.execBegin (h : SameInputs s s' ch) : SameEffect (execBegin s) (execBegin s') := by
  rw [Machine.execBegin, Machine.execBegin, onHost_eq h.self, onHost_eq h.self']
  split
  next => exact h.finish _ _ _
  next => exact h.finish_register _ _ _

theorem SameInputs.execPut (h : SameInputs s s' ch) (d : List Byte) : SameEffect (execPut d s) (execPut d s') := by
  rw [Machine.execPut, Machine.execPut, onHost_eq h.self, onHost_eq h.self']
  split
  next => exact h.finish _ _ _
  split
  next => exact h.finish _ _ _
  split
  next => exact h.finish _ _ _
  split <;> exact h.finish _ _ _

theorem SameInputs.execGet (h : SameInputs s s' ch) : SameEffect (execGet s) (execGet s') := by
  rw [Machine.execGet, Machine.execGet, onHost_eq h.self, onHost_eq h.self']
  split
  next => exact h.finish _ _ _
  split
  next => exact h.finish _ _ _
  next => exact sameEffect_fault _ _

theorem SameInputs.onHost_finish (h : SameInputs s s' ch) (resp : Channel → Response) :
    SameEffect (onHost s fun x => .next (s.finish x (some (resp x)) none))
      (onHost s' fun x => .next (s'.finish x (some (resp x)) none)) := by
  rw [onHost_eq h.self, onHost_eq h.self']
  exact h.finish _ _ _

/-- Settles O42, by the instruction: a host command reads its channel only, and a tick step also what its wires carry. -/
theorem channelsInteractOnlyThroughWires : Obligations.ChannelsInteractOnlyThroughWires := by
  intro i s s' t ch hs hs' ha hd hp
  have h : SameInputs s s' ch := ⟨hs, hs', ha, hd, hp⟩
  suffices heffect : SameEffect (exec i s) (exec i s') from heffect t
  cases i
  case hostBegin => exact h.execBegin
  case hostPut d => exact h.execPut d
  case hostGet => exact h.execGet
  case hostRdy => exact h.onHost_finish (.readyIs ·.messageReady)
  case hostStatus => exact h.onHost_finish (.statusIs ·.statusWord)
  all_goals exact h.execTick rfl

end Sys2Proof.Machine

/-! ### Both ends with a message staged (R205) -/

namespace Sys2Proof.Machine

/-- Settles O59: the first to tick finds its line idle and sends; the second samples what that drives, and receives
whatever it has staged. -/
theorem secondToTickReceives : Obligations.SecondToTickReceives := by
  intro s a b cha chb hidle hr
  obtain ⟨t, ht, hlink⟩ := (Linked.of_idleLink hidle).deliverAll_period
    (ticksTo_ready_send hidle.ready.1 hidle.low.2.2.2 hr) (ticksTo_ready_receive hidle.ready.2)
  exact ⟨t, _, _, ht, hlink.left.get, hlink.right.get, rfl, rfl, rfl, rfl, rfl⟩

end Sys2Proof.Machine

/-! ### Before `BEGIN` (R211) -/

namespace Sys2Proof.Machine

variable {s : State} {ch : Channel} {c : Nat} {i : Instr} {bytes : List Byte}

/-- A command that puts its channel back as it was changes no channel and no registration. -/
theorem deliver_host_unchanged {r : Option Response} {l : Option Label} (hd : decodeHost bytes = some i)
    (hc : s.chans[c]? = some ch) (hexec : exec i (s.select c) = .next ((s.select c).finish ch r l)) :
    ∃ t, deliver s (.host c bytes) = .next t ∧ t.chans = s.chans ∧ t.registry = s.registry ∧ t.out.resp = r := by
  have hself : (s.select c).self = some ch := hc
  rw [State.finish_unchanged hself] at hexec
  exact ⟨_, (deliver_host_eq hd s c).trans hexec, rfl, rfl, rfl⟩

/-- Before `BEGIN` every flag of `STATUS` is clear, and the state code and `RXLEN` are 0 (R230). -/
theorem Channel.powerOn_statusWord (cfg : ChanConfig) (inj : Injection) :
    ({ Channel.powerOn cfg with inject := inj } : Channel).statusWord = 0x0000#16 := by
  simp [Channel.statusWord, Channel.putWait, Channel.powerOn]

/-- Settles O18: power-on selects the branches of R182 to R186 that answer without a change, and the rule `skip`. -/
theorem nothingHappensBeforeBegin : Obligations.NothingHappensBeforeBegin := by
  intro s c cfg inj d hc hlen
  have hself : (s.select c).self = some { Channel.powerOn cfg with inject := inj } := hc
  refine ⟨?put, ?get, ?rdy, ?status, ?tick⟩
  case put =>
    have hd := (decodeHost_put _ d).trans (if_pos (toNat_ofNat_length hlen).symm)
    exact deliver_host_unchanged hd hc (execPut_uninit hself rfl)
  case get =>
    have hq : Code.notinit ≠ Code.rxDone := by decide
    exact deliver_host_unchanged (i := .hostGet) rfl hc (execGet_empty hself hq)
  case rdy => exact deliver_host_unchanged (i := .hostRdy) rfl hc (onHost_eq hself _)
  case status =>
    exact Channel.powerOn_statusWord cfg inj ▸ deliver_host_unchanged (i := .hostStatus) rfl hc (onHost_eq hself _)
  case tick => exact ⟨_, (deliverTick_eq hself rfl).trans (notinitTickWritesNothing.2 _ _ hself), rfl, rfl, rfl⟩

end Sys2Proof.Machine

/-! ### Due tick events (R214, R216) -/

namespace Sys2Proof.Machine

variable {s : State} {k : Nat} {before after : List Registration} {r : Registration}

theorem startPeriod_eq (hk : k < s.nTimers) :
    startPeriod s k =
      .next { s with due := s.due ++ s.registry.filter (fun r => r.timer == k), out := StepOut.none } := if_pos hk

/-- The next due channel of a source is that of its first due registration. -/
theorem State.nextDue_eq (hdue : s.due = before ++ r :: after) (hr : r.timer = k) (hb : ∀ x ∈ before, x.timer ≠ k) :
    s.nextDue k = some r.chan := by
  have hfirst : s.due.find? (fun x => x.timer == k) = some r :=
    List.find?_eq_some_iff_append.2 ⟨by simp [hr], before, after, hdue, by simpa using hb⟩
  rw [State.nextDue, hfirst, Option.map_some]

/-- A delivery takes the source's first due registration off the due list. -/
theorem State.popDue_eq (hdue : s.due = before ++ r :: after) (hr : r.timer = k) (hb : ∀ x ∈ before, x.timer ≠ k) :
    s.popDue k = { s with due := before ++ after } := by
  have herase : s.due.eraseP (fun x => x.timer == k) = before ++ after := by
    rw [hdue, List.eraseP_append_right _ (by simpa using hb), List.eraseP_cons_of_pos (by simp [hr])]
  rw [State.popDue, herase]

theorem deliverDue_eq {c : Nat} (hk : k < s.nTimers) (hc : s.nextDue k = some c) :
    deliverDue s k = deliverTick ((s.popDue k).select c) := by
  rw [deliverDue, if_pos hk, hc]

/-- Settles O37: the first due registration of the source is the one its delivery finds, takes and ticks. -/
theorem dueTicksFollowRegistrationOrder : Obligations.DueTicksFollowRegistrationOrder := by
  refine fun s k hk => ⟨startPeriod_eq hk, fun before after r hdue hr hb => ?_⟩
  calc deliver s (.deliver k)
      = deliverTick ((s.popDue k).select r.chan) := deliverDue_eq hk (State.nextDue_eq hdue hr hb)
    _ = deliver { s with due := before ++ after } (.tick r.chan) := by rw [State.popDue_eq hdue hr hb]; rfl

end Sys2Proof.Machine

/-! PROOFS, family 70_reset_and_hazards: a one-sided send under simultaneous sampling, and the invariants at power-on
(spec/70_reset_and_hazards.md). -/

/-! ### Simultaneous sampling (R57, R64)

Between the two latches of a period and its two ticks a channel of the link holds an injection, so it is not `Linked`
there; what the period rests on is which channel stands at each end. -/

namespace Sys2Proof.Machine

open Sys2Proof.Claims

variable {s t : State} {a b c : Nat} {l : Lines} {ch cha chb cha' chb' : Channel}

/-- The channel with the levels `l` sampled ahead for its next tick step. -/
def Channel.latch (ch : Channel) (l : Lines) : Channel := { ch with inject := { ch.inject with latched := some l } }

/-- `Channel.latch` is what the machine does when the harness has a channel sample its wires. -/
theorem deliver_latch (hc : s.chans[c]? = some ch) :
    ∃ t, deliver s (.latch c) = .next t ∧ t.chans = s.chans.set c (ch.latch (s.wireLevels ch)) :=
  ⟨_, onHost_eq (s := s.select c) hc _, rfl⟩

/-- A channel samples the levels it has latched, whatever its wires carry by then. -/
theorem State.sampled_latch (hclean : ch.inject = Injection.none) : s.sampled (ch.latch l) = l := by
  simp [State.sampled, Channel.latch, hclean, Injection.none]

/-- Channels `a` and `b` of the system are `cha` and `chb`. -/
structure Ends (s : State) (a b : Nat) (cha chb : Channel) : Prop where
  ne : a ≠ b
  left : s.chans[a]? = some cha
  right : s.chans[b]? = some chb

theorem Ends.symm (h : Ends s a b cha chb) : Ends s b a chb cha := ⟨h.ne.symm, h.right, h.left⟩

theorem Ends.set_left (h : Ends s a b cha chb) (ht : t.chans = s.chans.set a cha') : Ends t a b cha' chb := by
  obtain ⟨hlt, -⟩ := List.getElem?_eq_some_iff.1 h.left
  exact ⟨h.ne, by rw [ht, List.getElem?_set_self hlt], by rw [ht, List.getElem?_set_ne h.ne, h.right]⟩

/-- One end latches what the other drives. -/
theorem Ends.latch (h : Ends s a b cha chb) (hpeer : cha.cfg.peer = b) (hdriven : chb.driven = true) :
    ∃ t, deliver s (.latch a) = .next t ∧ Ends t a b (cha.latch chb.outputs) chb := by
  obtain ⟨t, ht, hchans⟩ := deliver_latch h.left
  rw [State.wireLevels_of_driven (hpeer.symm ▸ h.right) hdriven] at hchans
  exact ⟨t, ht, h.set_left hchans⟩

/-- One end ticks on the levels it has latched. -/
theorem Ends.tick_latched (h : Ends s a b (cha.latch l) chb) (hclean : cha.inject = Injection.none)
    (ht : (cha.latch l).TicksTo l cha') : ∃ t, deliver s (.tick a) = .next t ∧ Ends t a b cha' chb := by
  obtain ⟨t, hdel, hchans⟩ := deliver_tick_of_ticksTo h.left (by rwa [State.sampled_latch hclean])
  exact ⟨t, hdel, h.set_left hchans⟩

/-- A period of simultaneous sampling: each end ticks on what the other drives before either step (R57). -/
theorem Linked.deliverAll_lockstep (h : Linked s a b cha chb) (ha : (cha.latch chb.outputs).TicksTo chb.outputs cha')
    (hb : (chb.latch cha.outputs).TicksTo cha.outputs chb') :
    ∃ t, deliverAll (lockstep a b) s = .next t ∧ Linked t a b cha' chb' := by
  have ends : Ends s a b cha chb := ⟨h.ne, h.left.get, h.right.get⟩
  obtain ⟨s₁, h₁, ends₁⟩ := ends.latch h.left.peer h.right.driven
  obtain ⟨s₂, h₂, ends₂⟩ := ends₁.symm.latch h.right.peer h.left.driven
  obtain ⟨s₃, h₃, ends₃⟩ := ends₂.symm.tick_latched h.left.clean ha
  obtain ⟨t, h₄, ends₄⟩ := ends₃.symm.tick_latched h.right.clean hb
  have keptA := ha.sameHostFields
  have keptB := hb.sameHostFields
  refine ⟨t, ?_, h.ne, ⟨ends₄.right, ?_, ?_, ha.inject⟩, ⟨ends₄.left, ?_, ?_, hb.inject⟩⟩
  · simp [lockstep, deliverAll, h₁, h₂, h₃, h₄]
  · exact keptA.cfg ▸ h.left.peer
  · exact keptA.driven.trans h.left.driven
  · exact keptB.cfg ▸ h.right.peer
  · exact keptB.driven.trans h.right.driven

end Sys2Proof.Machine

/-! ### A one-sided send under simultaneous sampling (R235) -/

namespace Sys2Proof.Machine

open Sys2Proof.Claims

variable {s : State} {a b : Nat} {l : Lines} {ch cha chb : Channel} {m : Memory} {len : BitVec 8}

/-! #### The steps of the failing exchange -/

theorem ticksTo_ready_wait (hq : ch.state = Code.ready) (he : l.en = false) (hr : ch.txReady = false) :
    ch.TicksTo l (ch.inState ch.state (ch.tis + 1) false false) :=
  .of_rule (i := .tickReady) (by rw [hq]; rfl) rfl rfl (readyRule_stay (by simp [he]) (by simp [hr]))

theorem ticksTo_txStart_wrongEcho (hq : ch.state = Code.txStart) (ht : ch.tis = 0) :
    ch.TicksTo ⟨false, false⟩ ({ ch with txInProgress := false, txCursor := 0 }.inState 1#4 0 false false) :=
  .of_rule (i := .tickTxStart) (by rw [hq]; rfl) rfl (txStartGuard_none_of_tis (by simp [ht]))
    (txStartRule_wrongEcho rfl (by simp [ht]))

theorem ticksTo_rxStart_enFall (hq : ch.state = Code.rxStart) (he : l.en = false) :
    ch.TicksTo l (ch.inState 6#4 0 false false) :=
  .of_rule (i := .tickRxStart) (by rw [hq]; rfl) rfl (rxStartGuard_none_of_tis (by simp [he])) (rxStartRule_enFall he)

theorem ticksTo_rxAbort (hq : ch.state = Code.rxAbort) :
    ch.TicksTo l ({ ch.rxClear with txInProgress := false }.inState 1#4 0 false false) :=
  .of_rule (i := .tickRxAbort) (r := ⟨inRange, rxAbortRule⟩) (by rw [hq]; rfl) rfl rfl rfl

/-! #### Four periods -/

/-- An idle link with the first `len` bytes of `m` staged at the first end, and nothing at the second. -/
structure OneSided (s : State) (a b : Nat) (m : Memory) (len : BitVec 8) (cha chb : Channel) : Prop where
  idle : IdleLink s a b cha chb
  staged : cha.txReady = true
  empty : chb.txReady = false
  buf : cha.txBuf = m
  length : cha.txLen = len

theorem Linked.idleLink (h : Linked s a b cha chb) (hq : cha.state = Code.ready ∧ chb.state = Code.ready)
    (ha : cha.outputs = ⟨false, false⟩) (hb : chb.outputs = ⟨false, false⟩) : IdleLink s a b cha chb := by
  simp only [Channel.outputs, Lines.mk.injEq] at ha hb
  exact ⟨h.left.get, h.right.get, h.ne, ⟨h.left.peer, h.right.peer⟩, ⟨h.left.driven, h.right.driven⟩, hq,
    ⟨ha.1, ha.2, hb.1, hb.2⟩, ⟨h.left.clean, h.right.clean⟩⟩

/-- Two attempts of the sender take four periods. The receiver drives its echo only in the period in which the sender
checks for it and gives up; it aborts in the period in which the sender tries again, so the second check fails too. -/
theorem OneSided.four_periods (h : OneSided s a b m len cha chb) :
    ∃ t cha' chb', deliverAll ((List.replicate 4 (lockstep a b)).flatten) s = .next t ∧
      OneSided t a b m len cha' chb' := by
  obtain ⟨s₁, h₁, link₁⟩ := (Linked.of_idleLink h.idle).deliverAll_lockstep
    (ticksTo_ready_send h.idle.ready.1 h.idle.low.2.2.2 h.staged)
    (ticksTo_ready_wait h.idle.ready.2 h.idle.low.2.1 h.empty)
  obtain ⟨s₂, h₂, link₂⟩ := link₁.deliverAll_lockstep (ticksTo_txStart_wrongEcho rfl rfl)
    (ticksTo_ready_receive h.idle.ready.2)
  obtain ⟨s₃, h₃, link₃⟩ := link₂.deliverAll_lockstep (ticksTo_ready_send rfl rfl h.staged)
    (ticksTo_rxStart_enFall rfl rfl)
  obtain ⟨t, h₄, link₄⟩ := link₃.deliverAll_lockstep (ticksTo_txStart_wrongEcho rfl rfl) (ticksTo_rxAbort rfl)
  refine ⟨t, _, _, ?_, link₄.idleLink ⟨rfl, rfl⟩ rfl rfl, h.staged, h.empty, h.buf, h.length⟩
  simp [List.replicate, deliverAll_append h₁, deliverAll_append h₂, deliverAll_append h₃, h₄]

theorem OneSided.periods (n : Nat) (h : OneSided s a b m len cha chb) :
    ∃ t cha' chb', deliverAll ((List.replicate (4 * n) (lockstep a b)).flatten) s = .next t ∧
      OneSided t a b m len cha' chb' := by
  induction n generalizing s cha chb with
  | zero => exact ⟨s, cha, chb, rfl, h⟩
  | succ n ih =>
    obtain ⟨u, chu, chv, hu, hsided⟩ := h.four_periods
    obtain ⟨t, cha', chb', ht, hsided'⟩ := ih hsided
    refine ⟨t, cha', chb', ?_, hsided'⟩
    rw [Nat.mul_succ, Nat.add_comm, List.replicate_add, List.flatten_append, deliverAll_append hu, ht]

/-- Settles O58, by induction on the number of four-period cycles, each of which leaves the link as it found it. -/
theorem lockstepSamplingDeliversNothing : Obligations.LockstepSamplingDeliversNothing := by
  intro n s a b cha chb hidle hstaged hempty
  obtain ⟨t, cha', chb', ht, h⟩ := OneSided.periods n ⟨hidle, hstaged, hempty, rfl, rfl⟩
  have hnone : chb'.messageReady = false := by simp [Channel.messageReady, h.idle.ready.2]
  exact ⟨t, cha', chb', ht, h.idle, h.staged, h.empty, h.buf, h.length, hnone⟩

end Sys2Proof.Machine

/-! ### Power-on (R230) -/

namespace Sys2Proof.Machine

theorem Channel.powerOn_buffersOk (cfg : ChanConfig) : (Channel.powerOn cfg).BuffersOk :=
  have hwf : Memory.wf [] := ⟨.nil, nofun⟩
  ⟨hwf, hwf, nofun, nofun⟩

theorem Channel.powerOn_framingOk (cfg : ChanConfig) : (Channel.powerOn cfg).FramingOk :=
  Channel.framingOk_iff.2 ⟨.of_not_receiving (by simp [Channel.powerOn]), Memory.holdsFrame_zero []⟩

/-- What every channel satisfies at power-on holds throughout the reset system. -/
theorem State.allChannels_reset {P : Channel → Prop} (h : ∀ cfg, P (Channel.powerOn cfg)) :
    State.reset.AllChannels P :=
  List.forall_mem_cons.2 ⟨h resetConfigA, List.forall_mem_singleton.2 (h resetConfigB)⟩

/-- No channel has begun, so an empty registry is the right one. -/
theorem State.registryOk_reset : State.reset.RegistryOk := by
  have hbegun : State.reset.AllChannels (·.initialized = false) := State.allChannels_reset fun _ => rfl
  exact ⟨List.nodup_nil, nofun, fun _ ch hc hi => absurd hi (by simp [hbegun ch (List.mem_of_getElem? hc)])⟩

theorem State.configOk_reset : State.reset.ConfigOk where
  paired
    | 0, _, rfl => ⟨by decide, _, rfl, rfl⟩
    | 1, _, rfl => ⟨by decide, _, rfl, rfl⟩
  timed := by decide

/-- Settles O46: the channels' invariants hold of any channel at power-on, the system's of the one reset link. -/
theorem resetSatisfiesInvariants : Obligations.ResetSatisfiesInvariants :=
  ⟨State.allChannels_reset fun cfg => ⟨rfl, rfl, rfl, rfl, rfl, rfl, rfl, rfl, rfl, rfl, rfl, rfl, rfl,
      Channel.powerOn_statusWord cfg Injection.none⟩,
    rfl, State.sound_reset.1, State.sound_reset.2, State.allChannels_reset Channel.powerOn_buffersOk,
    State.allChannels_reset Channel.powerOn_framingOk, State.registryOk_reset, State.configOk_reset⟩

end Sys2Proof.Machine
